-- ==== Sys2Proof/Word.lean ====
section
/-! DEFINITION. The word types of the drive: bytes, byte strings, register words (R16, R20). -/
namespace Sys2Proof

/-- One byte. -/
abbrev Byte := BitVec 8

/-- A byte string: a key, a value, a frame, a record (R26, R31). -/
abbrev Bytes := List (BitVec 8)

/-- A register image: 32 bits, bit 0 least significant (R16, R20). -/
abbrev Word := BitVec 32

end Sys2Proof
end

