-- ==== Sys2Proof/Syntax.lean ====
section
/-! DEFINITION. The commands of the drive: one constructor of `Instr` per row of spec/opcode_table.json.

A command that serves a request names it by the id of the descriptor that the request holds (R270); a command
that the drive's surroundings cause carries what they supply (a frame, a temperature, the outcome of a flash read). -/
namespace Sys2Proof

/-- A host port (R234). -/
inductive Port where
  | a
  | b
  deriving DecidableEq, Repr, Inhabited

/-- A ring port: a lane pair of the span ring (5.1). -/
inductive RingPort where
  | up
  | dn
  deriving DecidableEq, Repr, Inhabited

/-- The two register access paths, each with its own latches (0.7.1). -/
inductive Path where
  | mgmt
  | smbus
  deriving DecidableEq, Repr, Inhabited

/-- A flash block: die number as MED_RREF_SEL counts it (channel x dies per channel + die), and block. -/
structure BlockId where
  die   : Nat
  block : Nat
  deriving DecidableEq, Repr, Inhabited

/-- How a flash read ends: the ladder step of Table 8.3 that decoded (0 to 6), a lost codeword (R309), or a value
whose codewords decode but whose GCM tag or chunk CRC fails (R310). -/
inductive ReadOutcome where
  | step (n : Fin 7)
  | lost
  | tagFail
  deriving DecidableEq, Repr, Inhabited

/-- What Clause 73 shows of the link partner: the technology abilities and FEC bits F0 to F3 of its base page,
EEE ability, and whether the partner's side resolves 25 Gb/s to no FEC (R236, R237). -/
structure Partner where
  kr25  : Bool
  kr25s : Bool
  kr10  : Bool
  f0    : Bool
  f1    : Bool
  f2    : Bool
  f3    : Bool
  eee   : Bool
  noFec : Bool
  np    : Bool
  deriving DecidableEq, Repr, Inhabited

/-- The memories under SECDED (Table 0.4, R304). -/
inductive Mem where
  | sram
  | dram
  | mram
  deriving DecidableEq, Repr, Inhabited

/-- The state in which an access meets a protected word: no error, one bit in error, two bits in error (R304). -/
inductive Found where
  | good
  | ce
  | ue
  deriving DecidableEq, Repr, Inhabited

/-- The structure that an uncorrectable word lies in (Table 8.2), with what names the object it belongs to. -/
inductive Struct where
  | index       (tenant : Nat) (key : Bytes)
  | valueCache  (tenant : Nat) (key : Bytes)
  | descriptor  (id : Nat)
  | execBuffer
  | ringBuffer  (port : RingPort)
  | staging     (id : Nat)
  | resyncLog
  | commitRecord (number : Nat) (otherGood : Bool)
  | controlItem (item : Nat) (otherGood : Bool)
  | firmwareImage
  | unused
  deriving DecidableEq, Repr, Inhabited

/-- What the burnisher reads next (Table 8.5): a word of a protected memory, a flash codeword, or the parity of a
tile word. -/
inductive Piece where
  | word    (mem : Mem) (addr : Nat) (found : Found) (structure_ : Struct)
  | flash   (blk : BlockId) (outcome : ReadOutcome) (corrected : Nat) (up down : List Nat)
      (victims : List (Nat × Bytes × Nat))
  | tile    (entry : Nat) (parityGood : Bool)
  deriving DecidableEq, Repr

/-- The halter's four reasons (R412, R413), as argument A of HALTER_RESET numbers them. -/
inductive HalterWhy where
  | notServed
  | selfTestDeadline
  | confirmDeadline
  | selfTestFailed
  deriving DecidableEq, Repr, Inhabited

/-- What a start finds (R446, R393, R410, R411): the control-area items that both copies lost (rows of Table 12.6),
whether ACTIVE and FALLBACK pass the loader's checks, whether the PLACE source fails in both copies, whether a torn
fuse row was left, and whether the journal's record walk met a record complete in one copy only. -/
structure Findings where
  lostItems    : List Nat
  intentGood   : Bool
  activeGood   : Bool
  fallbackGood : Bool
  placeGood    : Bool
  entropyGood  : Bool
  deriving DecidableEq, Repr, Inhabited

/-- Temperature and rail readings that the drive's sensors supply; `none` is a sensor that fails or reads
implausibly (R327). -/
structure Temps where
  td    : Option Int
  tj    : Option Int
  tbank : Option Int
  deriving DecidableEq, Repr, Inhabited

/-- The commands. Rows in the order of spec/opcode_table.json. -/
inductive Instr where
  -- host ports and the frame parser
  | hostFrameReceive (port : Port) (frame : Bytes) (pos dur : Nat)
  | durableCeilingWrite (fn space : Nat)
  | lldpduReceive (port : Port)
  | partnerEeeTlvExpire (port : Port)
  | lldpduSend (port : Port)
  | transmitLpiEnter (port : Port)
  | transmitFrame (port : Port)
  | autoNegotiationComplete (port : Port) (partner : Partner)
  | linkUp (port : Port)
  | linkUpTimeout (port : Port)
  | linkDown (port : Port) (rxCut txCut : Bool)
  | anRestart (port : Port)
  -- segmented transfers
  | segmentContinue (id : Nat)
  | segmentLate (id : Nat)
  -- tenant opcodes
  | get (id : Nat)
  | getGeneric (id : Nat)
  | getHold (id : Nat)
  | release (id : Nat)
  | put (id : Nat) (late : Bool)
  | putIfVersion (id : Nat) (late : Bool)
  | rewrite (id : Nat) (late : Bool)
  | patch (id : Nat) (late : Bool)
  | delete (id : Nat) (late : Bool)
  | browseOpen (id : Nat)
  | browseNext (id : Nat)
  | browsePrev (id : Nat)
  | browseClose (id : Nat)
  | post (id : Nat) (late : Bool)
  | postingStage3
  | postProgram (id : Nat) (late : Bool)
  | programTreeRun
  -- tally code
  | halt
  | ldi (a : Fin 16) (imm : BitVec 16)
  | ldc (a : Fin 16) (imm : BitVec 16)
  | mov (a b : Fin 16)
  | add (a b : Fin 16)
  | sub (a b : Fin 16)
  | mul (a b : Fin 16)
  | div (a b : Fin 16)
  | rem (a b : Fin 16)
  | muldiv (a b : Fin 16) (imm : BitVec 16)
  | neg (a : Fin 16)
  | cmp (a b : Fin 16)
  | br (a : Fin 16) (imm : BitVec 16)
  | ldbe (a b : Fin 16) (imm : BitVec 16)
  | stbe (a b : Fin 16) (imm : BitVec 16)
  | ldpd (a b : Fin 16) (imm : BitVec 16)
  | stpd (a b : Fin 16) (imm : BitVec 16)
  | ldzd (a b : Fin 16) (imm : BitVec 16)
  | stzd (a b : Fin 16) (imm : BitVec 16)
  | len (a : Fin 16) (imm : BitVec 16)
  | setlen (a : Fin 16) (imm : BitVec 16)
  | read (a : Fin 16) (imm : BitVec 16)
  | write (a : Fin 16) (imm : BitVec 16)
  | del (a : Fin 16) (imm : BitVec 16)
  | leg (a b : Fin 16) (imm : BitVec 16)
  | clk (a : Fin 16) (imm : BitVec 16)
  | call (imm : BitVec 16)
  | fail (imm : BitVec 16)
  | long (imm : BitVec 16)
  -- close of day, search, verification, time, query
  | closeDay (id : Nat)
  | scan (id : Nat)
  | scanCount (id : Nat)
  | patternLoad (slot : Nat)
  | patternPersist (slot : Nat)
  | scanTimeLimit (id : Nat)
  | verify (id : Nat)
  | setTime (id : Nat)
  | slewEnd
  | query (id : Nat)
  -- long operations
  | formatTenant (id : Nat)
  | rekey (id : Nat)
  | compact (id : Nat)
  | longOperationComplete (tenant : Nat)
  -- management: registers, resets, tenants
  | mgmtRead (id : Nat)
  | mgmtWrite (id : Nat)
  | registerWrite (addr : Nat) (value : Word)
  | counterLoRead (path : Path) (addr : Nat)
  | pairLRead (path : Path) (addr : Nat)
  | functionReset (id : Nat)
  | drainLimit (tenant : Nat)
  | resetComplete (tenant : Nat)
  | wedgeLimit (tenant : Nat)
  | fullReset (id : Nat)
  | tenantCreate (id : Nat)
  | tenantResize (id : Nat)
  | tenantRemove (id : Nat)
  | tenantStop (tenant : Nat)
  | tenantStart (tenant : Nat)
  | ruleLoad (id : Nat)
  | lcTransition (id : Nat)
  | keyLoad (id : Nat)
  | tkpGenErase (tenant : Nat) (value : Word)
  | lckTdaySet (tenant : Nat) (day : Word)
  -- field update
  | updBegin (id : Nat)
  | updBlock (id : Nat)
  | updCommit (id : Nat)
  | updActivate (id : Nat)
  | healthConfirm (id : Nat)
  | updAbort (value : Word)
  | updAbandoned
  | selfTestsPassed
  | halterReset (why : HalterWhy)
  -- the span
  | spanJoin (id : Nat)
  | spanJoinTimeout
  | spanLeave (id : Nat)
  | spanStatus (id : Nat)
  | spnCfgGo
  | slotStart
  | windowClose
  | rein (port : RingPort) (frame : Bytes) (arrival : Nat)
  | reinRegenerate
  | silentMember (member : Nat)
  | batch (port : RingPort) (frame : Bytes)
  | trailer (port : RingPort) (frame : Bytes)
  | ack (port : RingPort) (frame : Bytes)
  | batchCommit (orderFirst : Nat) (set : Nat)
  | digestReport (port : RingPort) (frame : Bytes)
  | rotationStart
  | digestDecision
  | joinReq (port : RingPort) (frame : Bytes)
  | configXfer (port : RingPort) (frame : Bytes)
  | probe (port : RingPort) (frame : Bytes)
  | probeEcho (port : RingPort) (frame : Bytes) (now upstream : Nat)
  | probePeriod
  | batchReq (port : RingPort) (frame : Bytes)
  | batchResend (port : RingPort) (frame : Bytes)
  | batchRepairTimeout (orderFirst : Nat)
  | resyncReq (port : RingPort) (frame : Bytes)
  | resyncData (port : RingPort) (frame : Bytes)
  | ringLaneLoss (port : RingPort)
  | ringUnwrap
  -- leases, journal, reads, clocks
  | floorTimeout (id : Nat)
  | holdExpire (tenant hold : Nat)
  | cursorExpire (tenant slot : Nat)
  | journalRecordComplete
  | readComplete (id : Nat) (outcome : ReadOutcome) (blk : BlockId) (others : List (Nat × Bytes × Nat))
  | destageComplete
  | meteringPeriodClose (tenant : Nat)
  | wallTimeJournal
  | tickCountJournal
  -- the cinch
  | cinchCreditTick
  | cinchGrant (ch : Fin 16)
  | cinchPreempt (ch : Fin 16)
  | transferUrgent (ch : Fin 16) (requester : Nat)
  | cinchTransferEnd (ch : Fin 16)
  | cinchStarved (ch : Fin 16) (requester : Nat)
  -- media and integrity
  | burnisherWalk (piece : Piece)
  | blockRefresh (blk to_ : BlockId)
  | ageCounterUpdate
  | dieRetire (ch : Fin 16) (die : Nat)
  | ruleParityError (entry : Nat) (shadowGood : Bool)
  | automatonParityError (slot : Nat) (bank : Bool) (otherTileGood : Bool)
  | partialWordWrite (mem : Mem) (addr : Nat) (offset : Nat) (data : Bytes) (found : Found)
  | fabricBurstCut
  | lifetimeRecordCopy
  | holdupMeasure (millijoules : Nat)
  | holdupChargeComplete (millijoules : Nat)
  -- adaptive loops, power and thermal
  | vfStepDown (margin : Int)
  | vfStepUp (margin : Int)
  | vfSafe (margin : Int) (plausible : Bool)
  | vfSafeEnd
  | serdesMargin (lane : Fin 4)
  | thermalLoopUpdate (temps : Temps)
  | powerLimit (centiwatts : Nat)
  | thermalHigh (td : Int)
  | thermalOk (td : Int)
  | thermalTrip (td tj : Int)
  | thermalHoldEnd
  | powerFail (programs : Nat)
  | powerGood
  | pwrDisAssert
  | pwrDisRelease
  | resetNAssert
  | resetNRelease
  | leverOpen
  -- resets and start-up
  | glbResetController (path : Path)
  | glbResetDrive (path : Path)
  | glbResetPower (path : Path)
  | resetBegin
  | startUp (found : Findings)
  | glbCfgSave (value : Word)
  | tickInQualified (missed : Bool) (ppm phase : Nat)
  | tickLost (byFrequency : Bool)
  -- key store
  | tackRemask (slot : Nat) (mask : Bytes)
  | tackParityError (slot : Nat) (recordGood : Bool)
  | entropyReseed (passed : Bool)
  | keyRecordPersist (record : Nat)
  -- events and SMBus
  | eventForm
  | smbSetPointer (data : Bytes) (pecGood : Bool)
  | smbBlockRead (pecGood : Bool)
  | smbWriteWord (data : Bytes) (pecGood : Bool)
  | smbReadFlags (pecGood : Bool)
  | smbAlertResponse
  -- lanes, low-power idle, releases and completions
  | ringLaneLock (port : RingPort)
  | receiveLpiEnter (port : Port)
  | receiveLpiExit (port : Port)
  | powerLimitRelease (centiwatts : Nat)
  | leverClose
  | actNRelease
  | tenantCreateComplete (tenant : Nat)
  | tenantRemoveComplete (tenant : Nat)
  | lcTransitionDone
  | ruleLoadValidate
  | keyLoadComplete
  | updBlockComplete (copyAGood copyBGood : Bool)
  | updCommitComplete
  deriving DecidableEq, Repr

end Sys2Proof
end

