-- ==== Sys2Proof/Decode.lean ====
section
/-! DEFINITION. The command that a word of the table's bits spells. The table of this block gives no row any bits
(every row's list of fields is empty), so no word spells a command. -/
namespace Sys2Proof

/-- The command that `nbits` bits `w` spell by the command table: none, since no row has bits. -/
def decodeTableWord (_nbits _w : Nat) : Option Instr := none

end Sys2Proof
end

