-- ==== Sys2Proof/Machine/Types.lean ====
section
/-! DEFINITION. The plain data that the drive's state is made of, part by part. Each structure names the rules that
give the machine its fields. -/
namespace Sys2Proof.Machine
open Sys2Proof

/-! ### Status values (Table 13.2) -/

/-- The status values of Table 13.2, in its order. -/
inductive Status where
  | done | endOfRange | partialEdge | partialLimit
  | accepted | segmentTaken
  | busy | busySelf | backpressure
  | functionAbsent | fieldReserved | opcode | optionDepth | option | length | range | segment | segmentLate
  | tagInUse | versionMismatch | holdMissing | keyHeld | cursorMissing | quotaExceeded | collationInvalid
  | dayMismatch | patternAbsent | patternInvalid | ruleInvalid | timeBeforeClose
  | notFound | dataLost | uncorrectable | integrityFail | invariantFailed | floorBreached | programFault
  | authFail | replay | stateForbids | keyExhausted | countExhausted | signature | unwrapFail
  | outsideSpan | rangeReadonly | fenced | notTimeMaster | levelMismatch | spanReconfig
  | wedged | resetting | thermal | leverOpen | holdupLow | blockCrc
  deriving DecidableEq, Repr, Inhabited

/-! ### Records (chapter 1) -/

/-- Why a value cannot be read (R309, R310). -/
inductive Lost where
  | no
  | uncorrectable
  | integrity
  deriving DecidableEq, Repr, Inhabited

/-- A record: key, value, version, its lost flag, and whether its value is in the DRAM value cache. Its stored form (R315, R375) is
`frames`, the value's chunk frames, `sealed` the ciphertext and tag that they are encrypted to, under the data key generation `gen`
with the invocation counter `nonce`. -/
structure Rec where
  key     : Bytes
  value   : Bytes
  version : Nat
  gen     : Nat
  nonce   : Nat
  frames  : Bytes
  sealed  : Bytes
  lost    : Lost
  cached  : Bool
  deriving DecidableEq, Repr, Inhabited

/-! ### Requests, replies and descriptors (chapter 2, R269 to R276) -/

/-- The network layer of a request, with what a reply repeats of it (R67). -/
inductive Net where
  | raw
  | v4 (src : BitVec 32) (tos : Byte)
  | v6 (src : BitVec 128) (tc : Byte) (flow : BitVec 20)
  deriving DecidableEq, Repr, Inhabited

/-- Where a request came from: what a reply or an event is addressed to (R67, R461). `vlans` holds the tag bytes. -/
structure Source where
  mac   : Bytes
  vlans : Bytes
  net   : Net
  udp   : Nat
  deriving DecidableEq, Repr, Inhabited

/-- A segmented transfer in flight (R92 to R96): the next index, the tick of the last taken segment, and whether a
segment that arrived in time is still undecided (R94). -/
structure Xfer where
  next    : Nat
  lastTick : Nat
  pendingSeg : Bool
  deriving DecidableEq, Repr, Inhabited

/-- What a descriptor is doing. -/
inductive Phase where
  | parsed                      -- passed the decisions of Table 2.6; its opcode has not been served yet
  | transfer (x : Xfer)         -- a segmented transfer in flight
  | floorWait                   -- a read that waits for its version floor (R46)
  | reading (floored : Bool)    -- a flash read of the record it answers; `floored`: a floor had held it back
  | ordered                     -- a write, posting, program or close in the order (R43, R194)
  | scanning                    -- a running scan (9.6)
  | longOp                      -- the issuer of a long operation (R128)
  | waiting                     -- a management operation that has been accepted and not completed
  | closing                     -- its final reply has been formed
  | squashed                    -- squashed; units still hold references (R275, R276)
  deriving DecidableEq, Repr, Inhabited

/-- An operation descriptor with the request that holds it (R89, R270). `ext` is the extended number E and `mac` the
key that verified the request (R83, R383); both are for tagged requests. `opts` holds the known option TLVs. `parsed` is the
instant, in ns, at which the request's last frame finished parsing (R43). `fetch` is the record that its flash read fetches, as
it stood when the request reached it (R45). -/
structure Desc where
  id       : Nat
  port     : Port
  src      : Source
  fn       : Nat
  space    : Nat
  tag      : Nat
  op       : Nat
  seq      : Nat
  ext      : Nat
  mac      : Option Bytes
  param    : BitVec 64
  key      : Bytes
  value    : Bytes
  opts     : List (Nat × Bytes)
  segCount : Nat
  total    : Nat
  arrival  : Nat
  parsed   : Nat
  phase    : Phase
  first    : Option Nat
  deadline : Option Nat
  staging  : Nat
  refs     : Nat
  tagFree  : Bool
  fetch    : Option Rec
  deriving DecidableEq, Repr, Inhabited

/-- A later segment that passed the decisions and awaits SEGMENT_CONTINUE (R96). -/
structure Seg where
  id      : Nat
  port    : Port
  op      : Nat
  index   : Nat
  count   : Nat
  total   : Nat
  keyLen  : Nat
  last    : Bool
  payload : Bytes
  arrival : Nat
  parsed  : Nat
  seq     : Nat
  ext     : Nat
  mac     : Option Bytes
  src     : Source
  deriving DecidableEq, Repr, Inhabited

/-- What a queued frame is (R256). -/
inductive FrameKind where
  | reply
  | event
  | lldp
  deriving DecidableEq, Repr, Inhabited

/-- A frame formed for a transmit queue (R67, R97, R256), as the fields that its bytes are built from. `owner` is the descriptor
whose request it answers, `final` the descriptor whose final reply it is, `tagOf` the tag of a request that holds no descriptor, `resets` the reset that
begins when the frame has left (R135, R408), `raw` the whole frame of an LLDPDU. -/
structure OutFrame where
  kind     : FrameKind
  dst      : Source
  fn       : Nat
  op       : Nat
  tag      : Nat
  seq      : Nat
  ext      : Nat
  mac      : Option Bytes
  status   : Status
  event    : Nat
  param    : BitVec 64
  opts     : Bytes
  key      : Bytes
  payload  : Bytes
  segIndex : Nat
  segCount : Nat
  total    : Nat
  isFirst  : Bool
  owner    : Option Nat
  final    : Option Nat
  tagOf    : Option (Nat × Nat × Nat)
  resets   : Option (Nat × Nat)
  raw      : Bytes
  deriving DecidableEq, Repr, Inhabited

/-! ### Host ports (chapter 6) -/

/-- The addresses and RAW_EN of a port, as one setting that changes at a tick (R247). -/
structure Addrs where
  tkxPort : Nat
  ipv4    : BitVec 32
  ipv6    : BitVec 128
  rawEn   : Bool
  deriving DecidableEq, Repr, Inhabited

/-- A partner's EEE TLV held by the LLDP agent (R242). -/
structure EeeTlv where
  rxTw   : Nat
  txTw   : Nat
  expiry : Nat
  deriving DecidableEq, Repr, Inhabited

/-- The result of auto-negotiation (R237): speed (1 10G, 2 25G), FEC (0 none, 1 BASE-R, 2 RS-FEC), EEE resolved. -/
structure AnResult where
  speed : Nat
  fec   : Nat
  eee   : Bool
  deriving DecidableEq, Repr, Inhabited

/-- What a port advertises in its Clause 73 base page (R236): technology abilities, FEC bits, EEE ability. -/
structure BasePage where
  kr25  : Bool
  kr25s : Bool
  kr10  : Bool
  f0    : Bool
  f1    : Bool
  f2    : Bool
  f3    : Bool
  eee   : Bool
  deriving DecidableEq, Repr, Inhabited

/-- A host port (Tables 6.4, 6.5 and 6.2 to 6.6). `ctrl` holds bits 7:0 of HP_CTRL but RAW_EN, whose home is
`addrs` (bit 6 of `ctrl` is not used). `addrHist` lists earlier addresses with the tick of the write that ended each,
newest first (R247). `admitted` lists frames admitted with the instant (ns) of their decision and their length (R252,
R255). `page` is the base page of the last negotiation, `nullPages` whether it sent null next pages. `lldpIn` holds the
frames taken aside with the tick of their arrival. `sent` is the wire: every frame that has left, newest first. -/
structure PortState where
  ctrl      : BitVec 8
  linkEvt   : BitVec 4
  up        : Bool
  anStart   : Option Nat
  an        : Option AnResult
  page      : BasePage
  nullPages : Bool
  withdrawn : Bool
  fallback  : Bool
  txLpi     : Bool
  rxLpi     : Bool
  eee       : Option EeeTlv
  ownTx     : Nat
  twInUse   : Nat
  twNext    : Option Nat
  lpiOk     : Bool
  lldpLast  : Option Nat
  lldpDue   : Bool
  lldpIn    : List (Nat × Bytes)
  idleSince : Nat
  addrs     : Addrs
  addrHist  : List (Nat × Addrs)
  txMtu     : Nat
  lpiHold   : Nat
  admitted  : List (Nat × Nat)
  short     : List OutFrame
  bulkFirst : List OutFrame
  bulk      : List OutFrame
  reg       : Option (Source × Nat)
  sent      : List Bytes
  deriving DecidableEq, Repr, Inhabited

/-! ### Message authentication (2.5) -/

/-- One sequence space (R82 to R86): H, the 64-number window as the accepted numbers in it, C, D and a D being
written. -/
structure Space where
  h        : Nat
  accepted : List Nat
  c        : Nat
  d        : Nat
  dNext    : Option Nat
  deriving DecidableEq, Repr, Inhabited

/-! ### Keys (chapter 10) -/

/-- The kind of a stored key, as KEY_LOAD and the blob header number them (R139, Table 10.2). -/
inductive KeyKind where
  | okek
  | data
  | mak
  deriving DecidableEq, Repr, Inhabited

/-- Data key generation states (Table 10.5). -/
inductive GenState where
  | current
  | pending
  | retired
  deriving DecidableEq, Repr, Inhabited

/-- A tack-room slot in use (R370 to R377): the slot number, its owner (0 to 31, or 62), the tenant's slot entry, the
key as two shares, its metadata and counters, and where its key record stands. -/
structure KeySlot where
  slot    : Nat
  fn      : Nat
  entry   : Nat
  kind    : KeyKind
  gen     : Nat
  gstate  : GenState
  share0  : Bytes
  share1  : Bytes
  serial  : Nat
  nonce   : Nat
  ceiling : Nat
  lowSent : Bool
  inMram  : Bool
  inPslc  : Bool
  lost    : Bool
  maskedAt : Nat
  deriving DecidableEq, Repr, Inhabited

/-! ### Holds, cursors and tenants (chapters 1 and 7) -/

/-- A hold (R48 to R54): valid in ticks `start` to `start + dur - 1`. -/
structure Hold where
  id      : Nat
  key     : Bytes
  version : Nat
  start   : Nat
  dur     : Nat
  deriving DecidableEq, Repr, Inhabited

/-- A browse cursor (R55 to R58, R115): valid in ticks `used` to `used + lease - 1`. `pos` is `none` before the first
step; a first step that ends without a record leaves it at the start key (R56). -/
structure Cursor where
  slot    : Nat
  gen     : Nat
  generic : Bool
  start   : Bytes
  pos     : Option Bytes
  used    : Nat
  lease   : Nat
  deriving DecidableEq, Repr, Inhabited

/-- Tenant states (Table 7.1). -/
inductive TenantState where
  | absent | stopped | running | busy | draining | squashing | wedged | removing
  deriving DecidableEq, Repr, Inhabited

/-- The tenant profile (Table 3.9). -/
structure Profile where
  quota    : Nat
  floor    : Nat
  weight   : Nat
  share    : Nat
  keyslots : Nat
  authReq  : Bool
  closeOk  : Bool
  lease    : Nat
  deriving DecidableEq, Repr, Inhabited

/-- The long operations (R128). -/
inductive LongKind where
  | format
  | rekey
  | compact
  | wholeScan
  deriving DecidableEq, Repr, Inhabited

/-- A running long operation (R128 to R132): its issuer (`none` after a restart), progress shown, the state the tenant
returns to, and the number it will report. -/
structure LongOp where
  kind    : LongKind
  issuer  : Option Nat
  opcode  : Nat
  percent : Nat
  wasStopped : Bool
  count   : Nat
  deriving DecidableEq, Repr, Inhabited

/-- A metering period (R179 to R182). -/
structure Period where
  number   : Nat
  openTick : Nat
  closeTick : Nat
  stepBack : Bool
  requests : Nat
  bytesRead : Nat
  bytesWritten : Nat
  busy     : Nat
  deriving DecidableEq, Repr, Inhabited

/-- A tenant (chapters 1, 4 and 7). `resetBy` lists the FUNCTION_RESETs whose DONE is due, oldest first; `emptied` says that the
reset has been complete since an earlier tick (R274), `startDue` that START makes it RUNNING from the next tick (R267). `coll` is
`none` for the bytewise collation. `closeTime` is the close time on record (R172, R176) and `closeShown` what LCK_TCLOSE shows of
it (R184). `pslots` lists the drive slots of the tenant's pattern slots, in order. `closed` lists the retained closed periods,
newest first. -/
structure Tenant where
  state      : TenantState
  endStopped : Bool
  resetAt    : Nat
  resetBy    : List Nat
  emptied    : Bool
  startDue   : Bool
  profile    : Profile
  coll       : Option Bytes
  recs       : List Rec
  holds      : List Hold
  nextHold   : Nat
  cursors    : List Cursor
  gens       : List (Nat × Nat)
  longOp     : Option LongOp
  day        : Nat
  closeTime  : Nat
  closeShown : Nat
  closeTick  : Nat
  closeSeq   : Nat
  closedOnce : Bool
  meterLen   : Nat
  meterSel   : Nat
  period     : Period
  closed     : List Period
  pslots     : List Nat
  deriving DecidableEq, Repr, Inhabited

/-! ### The local order, the journal and the posting engine (chapter 4, 8.2) -/

/-- What an entry of the order asks for (Table 5.4, kinds 1 to 4). -/
inductive EntryKind where
  | write
  | post
  | program
  | closeDay
  deriving DecidableEq, Repr, Inhabited

/-- A leg of a posting (Table 3.7): currency as three bytes, amount as an exact integer. -/
structure Leg where
  currency : Bytes
  amount   : Int
  key      : Bytes
  deriving DecidableEq, Repr, Inhabited

/-- What a posting or program leaves to be committed: the values it writes (`none` a deletion), in order, and the
result of a program. -/
structure Effects where
  writes : List (Bytes × Option Bytes)
  result : Bytes
  legs   : List Leg
  deriving DecidableEq, Repr, Inhabited

/-- An entry of an order: the request as Table 5.4 carries it, the held version it is judged against (R52), the
ordered tick and wall time (R174), the records that must still be read before it can be decided, its effects once
stage 3 or the tree run has passed, and the journal room it reserved. `desc` is `none` for an entry of another
member. `stamp` orders entries of this drive by the instant at which their requests finished parsing, port A before port B
(R43). For a POST_PROGRAM, `heldBy` lists the keys that other holds held in the tick of its last byte, with the ticks that they had
left (R49, R51, R161), and `heldKeys` the keys of the holds that it presented, with the versions that they read (R52, R109). -/
structure Entry where
  desc    : Option Nat
  kind    : EntryKind
  set     : Nat
  tenant  : Nat
  op      : Nat
  param   : BitVec 64
  key     : Bytes
  value   : Bytes
  expect  : Option Nat
  heldVer : Option Nat
  heldBy  : List (Bytes × Nat)
  heldKeys : List (Bytes × Nat)
  readSet : List Nat
  tick    : Nat
  wall    : Nat
  unread  : List Bytes
  effects : Option Effects
  room    : Nat
  steps   : Nat
  stamp   : Nat
  deriving DecidableEq, Repr, Inhabited

/-- A complete commit record that has not been destaged (R297 to R299): its place in both copies of the circular commit area, its
type, and the stored values that its payload carries, with what R152 has a posting's record hold. -/
structure JRec where
  number : Nat
  offset : Nat
  kind   : EntryKind
  payload : Bytes
  tenant : Nat
  set    : Nat
  size   : Nat
  seq    : Nat
  tick   : Nat
  wall   : Nat
  keys   : List Bytes
  legs   : List Leg
  valueDate : Nat
  day    : Nat
  hostRef : Nat
  deriving DecidableEq, Repr, Inhabited

/-- One invocation of tally code (R155): code and constants of its image, registers, compare flag, buffers and
program counter; `resultBuf` is the caller's buffer that its b3 replaces (R163). -/
structure Frame where
  code      : Bytes
  consts    : List Int
  regs      : List Int
  flag      : Ordering
  bufs      : List Bytes
  pc        : Nat
  resultBuf : Nat
  deriving DecidableEq, Repr

/-- How an invocation tree ended. -/
inductive TreeEnd where
  | halted
  | fault (code : Nat) (offset depth : Nat)
  | refused (status : Status) (param : BitVec 64) (key : Bytes)
  | busySelf (opcode : Nat) (offset depth : Nat)
  deriving DecidableEq, Repr

/-- A running invocation tree (R154 to R166): its tenant and replication set, the holds of its entry (R49, R52), what CLK returns,
its frames, deepest first; steps left; distinct keys read and distinct keys called; every key named so far, its own first (R201);
pending writes in order; legs emitted. -/
structure Tree where
  tenant   : Nat
  set      : Nat
  heldBy   : List (Bytes × Nat)
  heldKeys : List (Bytes × Nat)
  names    : List Bytes
  seq      : Nat
  tick     : Nat
  wall     : Nat
  day      : Nat
  frames   : List Frame
  stepsLeft : Nat
  keysRead : List Bytes
  called   : List Bytes
  writes   : List (Bytes × Option Bytes)
  legs     : List Leg
  ended    : Option TreeEnd
  result   : Bytes
  deriving DecidableEq, Repr

/-- The posting engine, the drive's own order, the commit journal and wall time (R33, R43, R167, R168, R170 to R173, R178, R297 to
R301). `freePtr` is the free pointer of the commit area, `half` the entry whose record had its valid word in copy A alone when the
drive stopped, `reads` the flash reads under way for span entries, as id, tenant and record (R169). -/
structure Ledger where
  nextSeq    : Nat
  order      : List Entry
  journal    : List JRec
  nextRecord : Nat
  freePtr    : Nat
  half       : Option (Entry × Effects)
  reads      : List (Nat × Nat × Rec)
  digest     : Bytes
  digestCount : Nat
  tree       : Option Tree
  peak       : Nat
  wall       : Nat
  debt       : Nat
  slewing    : Bool
  stall      : Nat
  timeSet    : Bool
  wallJournal : Nat
  wallJournalAt : Nat
  tickJournal : Nat
  journalHigh : Bool
  deriving DecidableEq, Repr

/-! ### Awl tiles (chapter 9) -/

/-- A rule entry (Table 9.2). `tenant` is `none` for a void entry (0x3F). -/
structure Rule where
  pfx    : Bytes
  tenant : Option Nat
  cls    : Nat
  set    : Nat
  v0     : Bool
  v1     : Bool
  deriving DecidableEq, Repr, Inhabited

/-- A rule load in progress (R343). -/
structure RuleLoading where
  desc     : Nat
  target   : Nat
  affected : List Nat
  coll     : Option Bytes
  started  : Nat
  deriving DecidableEq, Repr, Inhabited

/-- A drive pattern slot (R349 to R352): owner tenant and tenant slot, the two banks, the current one, images waiting
for their loads' search slots, each with the descriptor that carries it, and the image last persisted. -/
structure PatSlot where
  owner     : Option (Nat × Nat)
  bank0     : Option Bytes
  bank1     : Option Bytes
  current   : Bool
  load      : List (Nat × Bytes)
  persisted : Option Bytes
  deriving DecidableEq, Repr, Inhabited

/-- A running scan (9.6): where it stands and what it has found. `bank` is `none` until its load has run, `floor` a
version floor that its first read awaits, `ended` how a WHOLE scan has ended. -/
structure Scan where
  desc    : Nat
  tenant  : Nat
  count   : Bool
  mode    : Nat
  slot    : Nat
  bank    : Option Bool
  start   : Bytes
  pos     : Option Bytes
  limit   : Nat
  read    : Nat
  skipped : Nat
  matched : Nat
  began   : Nat
  floor   : Option Nat
  ended   : Option (Status × Nat × Bytes)
  deriving DecidableEq, Repr, Inhabited

/-- The tiles: rule table, active view, load in progress, the tick in which a shadow rebuild ends, pattern slots,
running scans, and the lanes that loads took with the tick they took them in. -/
structure Awl where
  rules   : List (Nat × Rule)
  view    : Bool
  loading : Option RuleLoading
  rebuildUntil : Nat
  slots   : List PatSlot
  scans   : List Scan
  stolen  : Nat × List Nat
  entrySel : Nat
  laneSel : Nat
  deriving DecidableEq, Repr, Inhabited

/-! ### The cinch (7.5) -/

/-- A transfer waiting for, or holding, a channel (R280): the descriptor of request work or `none` for background
work, the requester whose work it is (R288), the commit record that it destages, its bytes, whether it serves bound F, the tick in
which it became urgent, the bytes already moved, and the plaintext bytes that a search lane takes from it (0 where none does,
R357). -/
structure Flow where
  desc    : Option Nat
  home    : Nat
  record  : Option Nat
  bytes   : Nat
  boundF  : Bool
  urgent  : Option Nat
  moved   : Nat
  plain   : Nat
  deriving DecidableEq, Repr, Inhabited

/-- One requester on one channel (R280, R289): K, L, B, the ticks pending without a grant (CIN_VIEW_WAIT) and those of them that
count toward starvation, and its transfers, the current one first. P is the current transfer's `moved`. -/
structure Requester where
  k     : Int
  l     : Nat
  b     : Nat
  wait  : Nat
  starve : Nat
  flows : List Flow
  deriving DecidableEq, Repr, Inhabited

/-- A flash channel's arbiter: its 35 requesters, its holder, and the beats moved since the tick began (assumption
log 19). -/
structure Channel where
  reqs  : List Requester
  owner : Option Nat
  beats : Nat
  deriving DecidableEq, Repr, Inhabited

/-- The cinch and its settings (Table 7.6). -/
structure Cinch where
  chans     : List Channel
  preemptEn : Bool
  margin    : Nat
  starveTicks : Nat
  wSpan     : Nat
  wScrub    : Nat
  wUpdate   : Nat
  starveT   : BitVec 32
  starveS   : BitVec 3
  viewCh    : Nat
  viewReq   : Nat
  deriving DecidableEq, Repr, Inhabited

/-! ### Media (chapter 8) -/

/-- A protected word: 64 data bits and 8 check bits (R304). -/
structure Cell where
  data  : BitVec 64
  check : BitVec 8
  deriving DecidableEq, Repr, Inhabited

/-- A flash block (R318, R319, R326): pSLC or TLC, age counter at programming, reads, read-reference offsets, RREF_LIMIT now
and before it was last erased, cycles, a refresh due by errors, whether it stands erased, and the tick of the last
patrol-driven update of its offsets. -/
structure Block where
  id      : BlockId
  pslc    : Bool
  agedAt  : Nat
  reads   : Nat
  offsets : List Int
  limit   : Bool
  limitBefore : Bool
  cycles  : Nat
  errDue  : Bool
  erased  : Bool
  lastPatrol : Option Nat
  deriving DecidableEq, Repr, Inhabited

/-- Media state: protected words, blocks, dies, the age counter with its rate and the tick of its last update (R318), the lifetime
record (Table 8.8) with its pSLC copy and the tick of that copy, WEAR_END, the pieces that each pass of the burnisher has read
(flash, DRAM, SRAM, MRAM, tiles), the blocks that the first flash pass after a cold start has met (R320), the values committed of
late as tick, stored and plaintext bytes (MED_SKV_RATIO), and the selectors of Table 8.9. -/
structure Media where
  words     : List (Nat × Cell)
  blocks    : List Block
  retiredBlocks : List BlockId
  retiredDies : List (Nat × Nat)
  age       : Nat
  ageRate   : Nat
  ageFrac   : Nat
  ratedAt   : Nat
  life      : List Nat
  lifeCopy  : List Nat
  copiedAt  : Nat
  wearEnd   : Bool
  spare     : Nat
  walked    : List Nat
  firstPass : Bool
  visited   : List BlockId
  recent    : List (Nat × Nat × Nat)
  rrefDie   : Nat
  rrefBlock : Nat
  lifeSel   : Nat
  deriving DecidableEq, Repr, Inhabited

/-! ### Life cycle and field update (10.6, chapter 11) -/

/-- Life-cycle states (Table 10.6, codes of CIP_LC). -/
inductive LcState where
  | maker | owned | locked | ret | scrapped
  deriving DecidableEq, Repr, Inhabited

/-- The intent of a transition in the MRAM control area (R391): states, serial, the tick in which it began, and the value that its side
effects need. -/
structure Intent where
  frm   : LcState
  to_   : LcState
  k     : Nat
  tick  : Nat
  value : Bytes
  deriving DecidableEq, Repr, Inhabited

/-- Fuses and keys of the drive (10.1, 10.6, 10.7): life-cycle rows, spent count units, the DRK fuses, the intent in
MRAM, the descriptor of a transition under way, the state that holds to the end of the tick in which a DONE row was burned (R391),
serials accepted, the tack room, function 62's claim or derived key, the entropy and mask state with the tick of the last reseed. -/
structure Secure where
  rows       : List (BitVec 64)
  okekSpent  : Nat
  rebindSpent : Nat
  nsbSpent   : List Nat
  drk        : Bytes
  intent     : Option Intent
  lcHeld     : Option LcState
  lcDesc     : Option Nat
  lcRunning  : Bool
  serials    : List (Nat × Nat × Nat)
  tack       : List KeySlot
  mgmtMak    : Option Bytes
  keyLoads   : List (Nat × KeySlot)
  entFail    : Bool
  seeded     : Bool
  reseeds    : Nat
  reseedAt   : Nat
  fuseSel    : Nat
  deriving DecidableEq, Repr, Inhabited

/-- Update session states (Table 11.1). -/
inductive Session where
  | idle | receiving | committed | unconfirmed
  deriving DecidableEq, Repr, Inhabited

/-- A firmware slot (R398): its manifest (empty when the slot is empty) and its blocks by index. -/
structure Image where
  manifest : Bytes
  blocks   : List (Nat × Bytes)
  deriving DecidableEq, Repr, Inhabited

/-- Field update (chapter 11): slots, session, received map, results, loader and halter. `blockDescs` lists the blocks being
programmed (descriptor, index, bytes), `commits` the descriptors of UPD_COMMITs under way. -/
structure Update where
  active     : Image
  fallbackI  : Image
  stage      : Image
  session    : Session
  received   : List Nat
  lastOp     : Nat
  lastResult : Nat
  starts     : Nat
  phase      : Nat
  copying    : Nat
  done       : List Nat
  again      : Nat
  levelWarn  : Bool
  commitErr  : Nat × Nat
  minSec     : Nat
  revoked    : BitVec 4
  dataFmt    : Nat
  cfgFmt     : Nat
  selfTestOk : Bool
  startedAt  : Nat
  testedAt   : Option Nat
  activated  : Bool
  halted     : Option HalterWhy
  blockDescs : List (Nat × Nat × Bytes)
  commits    : List Nat
  newRecords : Bool
  deriving DecidableEq, Repr, Inhabited

/-! ### Power, thermal, tick source, start-up, SMBus (chapter 12, 8.9) -/

/-- A SerDes lane's adaptation (Table 8.10). -/
structure Lane where
  tx   : Nat
  ctle : Nat
  taps : List Int
  eye  : Nat
  limitFor : Nat
  lowFor   : Nat
  deriving DecidableEq, Repr, Inhabited

/-- What powers the drive: running, power failing (R429, R430), rails off, or thermal hold. -/
inductive Rails where
  | on
  | failing
  | off
  | thermalHold
  deriving DecidableEq, Repr, Inhabited

/-- Power and thermal state (8.9, 12.2 to 12.4). `resetN` and `leverOpen` are pin levels, `reduction` is in descriptors, `cw` in
0.01 W, `slewUntil` the tick in which the slew to TICK_IN ends. -/
structure Power where
  rails     : Rails
  supplyGood : Bool
  pwrDis    : Bool
  resetN    : Bool
  leverOpen : Bool
  actUntil  : Nat
  td        : Int
  tj        : Int
  tbank     : Int
  sensorBad : Bool
  reduction : Nat
  reducedAt : Nat
  clockCap  : Bool
  thrStart  : Nat
  vfStep    : Nat
  vfVolt    : Nat
  vfUp      : Bool
  vfSafe    : Option Nat
  vfCap     : Nat
  vfGood    : Nat
  margin    : Int
  powerCap  : Nat
  powerHigh : Bool
  mv        : Nat
  cw        : Nat
  energy    : Nat
  charging  : Bool
  measureDue : Nat
  holdupFail : Bool
  holdupLow : Bool
  thermal   : Bool
  tripped   : Bool
  tripTemps : Option (Int × Int)
  lanes     : List Lane
  srcReq    : Bool
  srcIn     : Bool
  tickOk    : Bool
  slewUntil : Nat
  deriving DecidableEq, Repr, Inhabited

/-- The saved RW fields of one host port (R443). -/
structure SavedPort where
  ctrl    : BitVec 8
  addrs   : Addrs
  txMtu   : Nat
  lpiHold : Nat
  deriving DecidableEq, Repr, Inhabited

/-- The saved RW fields of CIN_ (R443). -/
structure SavedCinch where
  preemptEn   : Bool
  margin      : Nat
  starveTicks : Nat
  wSpan       : Nat
  wScrub      : Nat
  wUpdate     : Nat
  viewCh      : Nat
  viewReq     : Nat
  deriving DecidableEq, Repr, Inhabited

/-- Saved settings (R443). -/
structure Saved where
  ports   : List SavedPort
  cinch   : SavedCinch
  thrStart : Nat
  vfCap   : Nat
  meterLens : List (Nat × Nat)
  srcReq  : Bool
  deriving DecidableEq, Repr, Inhabited

/-- Resets and start-up (12.5, 12.6): GLB_BOOT's phase, a reset that has been caused and not begun (type, cause), the
cause and type shown, and saved settings. -/
structure Boot where
  phase   : Nat
  pending : Option (Nat × Nat)
  cause   : Nat
  rtype   : Nat
  saved   : Option Saved
  deriving DecidableEq, Repr, Inhabited

/-- SMBus (12.7): pointer, count, flags, and what the drive last answered. -/
structure Smbus where
  ptr     : Nat
  count   : Nat
  addrErr : Bool
  pecErr  : Bool
  out     : Bytes
  deriving DecidableEq, Repr, Inhabited

/-- An event (Table 13.3). -/
structure Event where
  number : Nat
  code   : Nat
  a      : Nat
  b      : Nat
  c      : Nat
  wall   : Nat
  deriving DecidableEq, Repr, Inhabited

/-- The event queue (13.2): waiting events, oldest first; positions taken in the tick `atTick`; losses not yet carried;
GLB_ALERT. -/
structure Events where
  queue  : List Event
  atTick : Nat
  taken  : Nat
  lost   : Nat
  pend   : BitVec 8
  en     : BitVec 8
  deriving DecidableEq, Repr, Inhabited

/-! ### The span (chapter 5) -/

/-- SPN_STATE codes (Table 5.10). -/
inductive SpanState where
  | none | joining | member | outside | leaving
  deriving DecidableEq, Repr, Inhabited

/-- What an entry of a batch is (Table 5.4). `raw` holds its bytes, `done` says that it has been applied here, `noted` that it has been
journalled here, with the sequence number that its outcome has (0 a refusal; R203), and `recs` holds its values as they were
encrypted then. -/
structure BEntry where
  kind : Nat
  ent  : Entry
  raw  : Bytes
  done : Bool
  noted : Option Nat
  recs : List Rec
  deriving DecidableEq, Repr, Inhabited

/-- A batch that the drive holds (R194, R195, R203, R204, R226): its first order index, rotation, origin, ordered tick
and wall time, frame bodies by index, its entries, whether its TRAILER matched, whether a rein covers it, the ACKs seen
(member, bitmap of sets), the sets for which it has committed, those for which it is void (R207), and the rotation in which a
repair began. -/
structure Batch where
  first     : Nat
  rotation  : Nat
  origin    : Nat
  tick      : Nat
  wall      : Nat
  frames    : List (Nat × Bytes)
  entries   : List BEntry
  trailer   : Option Bytes
  complete  : Bool
  covered   : Bool
  acks      : List (Nat × BitVec 16)
  committed : BitVec 16
  void      : BitVec 16
  repair    : Option Nat
  deriving DecidableEq, Repr, Inhabited

/-- A replication set at this member (R202, R207, R223, R224). `away` lists the members known to be fenced for it, `mark` its
digest as of the last entry of the previous rotation, once this member has applied that far. -/
structure SetState where
  id       : Nat
  nextSeq  : Nat
  digest   : Bytes
  applied  : Nat
  fenced   : Bool
  readOnly : Bool
  degraded : Bool
  skew     : Bool
  away     : List Nat
  mark     : Option Bytes
  deriving DecidableEq, Repr, Inhabited

/-- An outcome logged during a resynchronisation (R228): what R223 chains, and the keys written. -/
structure LogItem where
  index  : Nat
  seq    : Nat
  status : Status
  bytes  : Bytes
  keys   : List Bytes
  deriving DecidableEq, Repr, Inhabited

/-- A resynchronisation in progress (R228): set, source, the source's count of records, keys streamed so far, and the outcome
log. -/
structure Resync where
  set      : Nat
  source   : Nat
  total    : Nat
  streamed : List Bytes
  log      : List LogItem
  deriving DecidableEq, Repr, Inhabited

/-- A digest report seen (R223, R224): the rotation in which it was seen, kind, set, reporter, order index, digest. -/
structure Report where
  rot   : Nat
  kind  : Nat
  set   : Nat
  who   : Nat
  index : Nat
  digest : Bytes
  deriving DecidableEq, Repr, Inhabited

/-- A frame of this member's own that waits for its transmitter (Table 5.8): direction (true primary), priority, bytes. -/
structure TxFrame where
  primary : Bool
  prio    : Nat
  bytes   : Bytes
  deriving DecidableEq, Repr, Inhabited

/-- A ring lane pair: signal and block lock, and the tick since which it has held. -/
structure RingLane where
  lock  : Bool
  since : Nat
  deriving DecidableEq, Repr, Inhabited

/-- Where a join stands (Table 5.7): the descriptor of SPAN_JOIN (`none` for a rejoin), the tick of its first reply,
whether a matching rein has been seen and PROBE sent, and whether JOIN_REQ has been sent. -/
structure Joining where
  desc    : Option Nat
  began   : Nat
  probed  : Bool
  reqSent : Bool
  deriving DecidableEq, Repr, Inhabited

/-- The span (chapter 5). `cfg` is the configuration record in force, `identity` the span identity last joined (R232).
`rein` is the body of the last rein received, `reinHere` says that it passed this member the slot, `slotWall` is the wall
time at the start of its slot. `own` and `system` hold entries admitted to this member's next batch, oldest first, `later` those
for the batch after it (R197). `outsiders` are the present members known to be OUTSIDE (R214), `rotStart` is the span tick at which
the present rotation began and `slotAt` that of the last slot of its own that the member took up. `markAt` is
the order index at which the present rotation began; `toReport` lists digest reports for the next slot. `rxUp` and `rxDn` are the
bytes that wait in the receive buffers (R229), `tx` the own frames that wait for a transmitter, `sentP` and `sentS` the bytes that
each transmitter has put out since the tick began (Table 5.8).
`out` is what the drive has put on the ring: direction (true primary) and frame, newest first. -/
structure Span where
  state     : SpanState
  me        : Nat
  cfg       : Option Bytes
  identity  : Option Bytes
  staged    : Bytes
  cfgBad    : Bool
  reconfig  : Bool
  nextCfg   : Option Bytes
  wrapped   : Bool
  brokenDn  : Bool
  brokenUp  : Bool
  loopLong  : Bool
  present   : List Nat
  joins     : List Nat
  removes   : List Nat
  master    : Nat
  masterWall : Nat
  masterTick : Nat
  rotation  : Nat
  slotTick  : Nat
  orderNext : Nat
  commitOrder : Nat
  offset    : Int
  phase     : Int
  slew      : Int
  loopDelay : Nat
  upDelay   : Nat
  forfeitRun : Nat
  forfeits  : BitVec 16
  silent    : List (Nat × Nat)
  rein      : Option Bytes
  reinHere  : Bool
  inSlot    : Bool
  slotWall  : Nat
  windowOpen : Bool
  forfeiting : Bool
  regen     : Bool
  own       : List Entry
  later     : List Entry
  system    : List BEntry
  outsiders : List Nat
  rotStart  : Nat
  slotAt    : Option Nat
  batches   : List Batch
  sets      : List SetState
  setDigest : List (Nat × Bytes)
  markAt    : Nat
  toReport  : List Report
  reports   : List Report
  resync    : Option Resync
  join      : Option Joining
  leave     : Option Nat
  laneUp    : RingLane
  laneDn    : RingLane
  spanLo    : Nat
  spanHi    : Nat
  probeLast : Nat
  rxUp      : Nat
  rxDn      : Nat
  tx        : List TxFrame
  sentP     : Nat
  sentS     : Nat
  out       : List (Bool × Bytes)
  deriving DecidableEq, Repr, Inhabited

/-- The identity that fuses fix (Table 12.9): part 1536 or 768, board revision, serial characters, instance id and the
port MAC addresses. -/
structure Ident where
  cap      : Nat
  hwRev    : Nat
  serial   : Bytes
  instanceId : Nat
  macA     : Bytes
  macB     : Bytes
  deriving DecidableEq, Repr, Inhabited

end Sys2Proof.Machine
end

