-- ==== Sys2Proof/Machine/Bits.lean ====
section
/-! DEFINITION. Byte order, bit fields, cyclic redundancy checks, and small list operations used everywhere (R16). -/
namespace Sys2Proof.Machine
open Sys2Proof

/-- The big-endian unsigned integer of a byte string (R16). -/
def beNat (b : Bytes) : Nat := b.foldl (fun acc x => acc * 256 + x.toNat) 0

/-- `w` bytes, big-endian, of `n` (modulo 256 ^ w). -/
def toBe : (w : Nat) → (n : Nat) → Bytes
  | 0, _ => []
  | w + 1, n => toBe w (n / 256) ++ [BitVec.ofNat 8 n]

/-- The little-endian unsigned integer of a byte string (register images, R16). -/
def leNat (b : Bytes) : Nat := beNat b.reverse

/-- `w` bytes, little-endian, of `n`. -/
def toLe (w n : Nat) : Bytes := (toBe w n).reverse

/-- `n` bytes from offset `off`; fewer where the string ends. -/
def slice (b : Bytes) (off n : Nat) : Bytes := (b.drop off).take n

/-- The byte at an offset; zero beyond the end. -/
def byteAt (b : Bytes) (i : Nat) : Nat := (b.getD i 0#8).toNat

/-- The big-endian 16-bit field at an offset. -/
def u16 (b : Bytes) (off : Nat) : Nat := beNat (slice b off 2)

/-- The big-endian 32-bit field at an offset. -/
def u32 (b : Bytes) (off : Nat) : Nat := beNat (slice b off 4)

/-- The big-endian 64-bit field at an offset. -/
def u64 (b : Bytes) (off : Nat) : Nat := beNat (slice b off 8)

/-- Bits `hi` down to `lo` of a number (R16). -/
def bits (n hi lo : Nat) : Nat := n / 2 ^ lo % 2 ^ (hi - lo + 1)

/-- Bit `i` of a number. -/
def bit (n i : Nat) : Bool := n / 2 ^ i % 2 = 1

/-- A Boolean as a bit at a place. -/
def flagAt (b : Bool) (i : Nat) : Nat := if b then 2 ^ i else 0

/-- Two's complement: the signed integer that `w` bits of `n` stand for. -/
def toSigned (w n : Nat) : Int := if n < 2 ^ (w - 1) then (n : Int) else (n : Int) - (2 ^ w : Nat)

/-- Two's complement: `w` bits that stand for a signed integer. -/
def ofSigned (w : Nat) (i : Int) : Nat := (i % ((2 ^ w : Nat) : Int)).toNat

/-- A signed integer lies in the range of `w`-bit two's complement. -/
def fitsSigned (w : Nat) (i : Int) : Bool := -((2 ^ (w - 1) : Nat) : Int) ≤ i && i < ((2 ^ (w - 1) : Nat) : Int)

/-- Every byte is zero. -/
def allZero (b : Bytes) : Bool := b.all (· == 0#8)

/-- Exclusive or, byte by byte. -/
def xorBytes (a b : Bytes) : Bytes := List.zipWith (· ^^^ ·) a b

/-- `b` padded with zeros, or cut, to `n` bytes. -/
def padTo (n : Nat) (b : Bytes) : Bytes := (b ++ List.replicate (n - b.length) 0#8).take n

/-- Division rounded up. -/
def ceilDiv (a b : Nat) : Nat := (a + b - 1) / b

/-- One step of a reflected 32-bit CRC over a byte. -/
def crcByte (poly : Nat) (crc : Nat) (x : Byte) : Nat :=
  (List.range 8).foldl (fun c _ => if c % 2 = 1 then (c / 2) ^^^ poly else c / 2) (crc ^^^ x.toNat)

/-- A reflected 32-bit CRC with all-ones initial value and final inversion. -/
def crc32With (poly : Nat) (b : Bytes) : Nat := (b.foldl (crcByte poly) 0xFFFFFFFF) ^^^ 0xFFFFFFFF

/-- CRC-32C, Castagnoli (Table 0.8). -/
def crc32c (b : Bytes) : Nat := crc32With 0x82F63B78 b

/-- The Ethernet frame check sequence, as the integer whose bytes follow the frame little-endian. -/
def fcsOf (b : Bytes) : Nat := crc32With 0xEDB88320 b

/-- CRC-8 of a life-cycle row (R386): polynomial 0x07, initial value 0, nothing reflected. -/
def crc8 (b : Bytes) : Nat :=
  b.foldl (fun crc x =>
    (List.range 8).foldl (fun c _ => if c / 128 % 2 = 1 then ((c * 2) ^^^ 0x07) % 256 else c * 2 % 256)
      (crc ^^^ x.toNat)) 0

/-- The one's complement sum of a byte string in 16-bit words, an odd last byte padded with zero. -/
def onesSum : Bytes → Nat
  | [] => 0
  | [a] => a.toNat * 256
  | a :: b :: rest => a.toNat * 256 + b.toNat + onesSum rest

/-- Carry folding of a one's complement sum. -/
def fold16 (n : Nat) : Nat :=
  let a := n % 65536 + n / 65536
  let b := a % 65536 + a / 65536
  b % 65536 + b / 65536

/-- The Internet checksum of IPv4 and UDP. -/
def inetSum (b : Bytes) : Nat := 0xFFFF - fold16 (onesSum b)

/-- The nibbles of a byte string, high first. -/
def nibbles (b : Bytes) : List Nat := b.flatMap (fun x => [x.toNat / 16, x.toNat % 16])

/-- Bytes from nibbles, high first. -/
def ofNibbles : List Nat → Bytes
  | a :: b :: rest => BitVec.ofNat 8 (a * 16 + b) :: ofNibbles rest
  | _ => []

/-- The number that decimal digits spell, most significant first. -/
def ofDigits (ds : List Nat) : Nat := ds.foldl (fun acc d => acc * 10 + d) 0

/-- `n` decimal digits of a number, most significant first. -/
def toDigits (n v : Nat) : List Nat := ((List.range n).map (fun i => v / 10 ^ i % 10)).reverse

/-- The value under a key of an association list. -/
def assoc (l : List (Nat × α)) (k : Nat) : Option α := (l.find? (fun p => p.1 == k)).map (·.2)

/-- An association list kept rising by key, with `v` put under `k`. -/
def insertSorted (k : Nat) (v : α) : List (Nat × α) → List (Nat × α)
  | [] => [(k, v)]
  | (k', v') :: rest =>
    if k < k' then (k, v) :: (k', v') :: rest
    else if k = k' then (k, v) :: rest
    else (k', v') :: insertSorted k v rest

/-- An association list without a key. -/
def eraseKey (k : Nat) (l : List (Nat × α)) : List (Nat × α) := l.filter (fun p => p.1 != k)

/-- The list with `f` applied to the element at an index. -/
def modifyAt (l : List α) (i : Nat) (f : α → α) : List α := l.modify i f

end Sys2Proof.Machine
end

