-- ==== Sys2Proof/Machine/Crypto.lean ====
section
/-! DEFINITION. The published algorithms that the spec names and uses (Table 0.8): AES-256 (FIPS 197), CMAC
(NIST SP 800-38B), GCM (NIST SP 800-38D), key unwrap (RFC 5649), SHA-384 (FIPS 180-4), ECDSA P-384 verification (FIPS 186-5), and the key
derivation of R363. PRESUMED from the standards (assumption log 5); the spec names them and gives no tables. -/
namespace Sys2Proof.Machine
open Sys2Proof

/-- The AES substitution box, 32 entries to a number, first entry most significant. -/
def sboxRows : List Nat :=
  [0x637C777BF26B6FC53001672BFED7AB76CA82C97DFA5947F0ADD4A2AF9CA472C0,
   0xB7FD9326363FF7CC34A5E5F171D8311504C723C31896059A071280E2EB27B275,
   0x09832C1A1B6E5AA0523BD6B329E32F8453D100ED20FCB15B6ACBBE394A4C58CF,
   0xD0EFAAFB434D338545F9027F503C9FA851A3408F929D38F5BCB6DA2110FFF3D2,
   0xCD0C13EC5F974417C4A77E3D645D197360814FDC222A908846EEB814DE5E0BDB,
   0xE0323A0A4906245CC2D3AC629195E479E7C8376D8DD54EA96C56F4EA657AAE08,
   0xBA78252E1CA6B4C6E8DD741F4BBD8B8A703EB5664803F60E613557B986C11D9E,
   0xE1F8981169D98E949B1E87E9CE5528DF8CA1890DBFE6426841992D0FB054BB16]

/-- The AES substitution of one byte. -/
def subByte (x : Nat) : Nat := (sboxRows.getD (x / 32) 0) / 256 ^ (31 - x % 32) % 256

/-- The inverse substitution of one byte. -/
def invSubByte (y : Nat) : Nat := ((List.range 256).find? (fun x => subByte x == y)).getD 0

/-- Doubling in the AES field. -/
def xtime (x : Nat) : Nat := if x < 128 then x * 2 else ((x * 2) ^^^ 0x11B)

/-- Product in the AES field with a small constant, by its four low bits. -/
def gfMul (c x : Nat) : Nat :=
  let x2 := xtime x
  let x4 := xtime x2
  let x8 := xtime x4
  (if bit c 0 then x else 0) ^^^ (if bit c 1 then x2 else 0) ^^^ (if bit c 2 then x4 else 0)
    ^^^ (if bit c 3 then x8 else 0)

/-- Exclusive or of two number lists. -/
def xorNats (a b : List Nat) : List Nat := List.zipWith (· ^^^ ·) a b

/-- The next eight words of the AES-256 key schedule. -/
def scheduleRound (rcon : Nat) (w : List (List Nat)) : List (List Nat) :=
  let g := match (w.getD 7 []) with
    | [a, b, c, d] => [subByte b ^^^ rcon, subByte c, subByte d, subByte a]
    | l => l
  let w8 := xorNats (w.getD 0 []) g
  let w9 := xorNats (w.getD 1 []) w8
  let w10 := xorNats (w.getD 2 []) w9
  let w11 := xorNats (w.getD 3 []) w10
  let w12 := xorNats (w.getD 4 []) (w11.map subByte)
  let w13 := xorNats (w.getD 5 []) w12
  let w14 := xorNats (w.getD 6 []) w13
  let w15 := xorNats (w.getD 7 []) w14
  [w8, w9, w10, w11, w12, w13, w14, w15]

/-- The AES-256 key schedule from the last eight words on. -/
def schedule : Nat → Nat → List (List Nat) → List (List Nat)
  | 0, _, w => w
  | n + 1, rcon, w => w ++ schedule n (xtime rcon) (scheduleRound rcon w)

/-- A list cut into pieces of `n`. -/
def chunk (n : Nat) : Nat → List α → List (List α)
  | 0, _ => []
  | k + 1, l => l.take n :: chunk n k (l.drop n)

/-- The fifteen round keys of AES-256. -/
def roundKeys (key : Bytes) : List (List Nat) :=
  chunk 16 15 (schedule 7 1 (chunk 4 8 ((padTo 32 key).map (·.toNat)))).flatten

/-- The AES row shift; `sh` is 1 to encrypt and 3 to decrypt. -/
def shiftRows (sh : Nat) (s : List Nat) : List Nat :=
  (List.range 16).map (fun i => s.getD ((4 * ((i / 4 + sh * (i % 4)) % 4)) + i % 4) 0)

/-- The AES column mix with a row of constants. -/
def mixColumns (m : List Nat) (s : List Nat) : List Nat :=
  (List.range 16).map (fun i =>
    (List.range 4).foldl (fun acc j => acc ^^^ gfMul (m.getD ((j + 4 - i % 4) % 4) 0) (s.getD (4 * (i / 4) + j) 0)) 0)

/-- AES-256 encryption of a 16-byte block under given round keys. -/
def aesEncryptWith (rks : List (List Nat)) (blk : List Nat) : List Nat :=
  let s0 := xorNats blk (rks.getD 0 [])
  let s := (List.range 13).foldl (fun s r =>
    xorNats (mixColumns [2, 3, 1, 1] (shiftRows 1 (s.map subByte))) (rks.getD (r + 1) [])) s0
  xorNats (shiftRows 1 (s.map subByte)) (rks.getD 14 [])

/-- AES-256 decryption of a 16-byte block under given round keys. -/
def aesDecryptWith (rks : List (List Nat)) (blk : List Nat) : List Nat :=
  let s0 := xorNats blk (rks.getD 14 [])
  let s := (List.range 13).foldl (fun s r =>
    mixColumns [14, 11, 13, 9] (xorNats ((shiftRows 3 s).map invSubByte) (rks.getD (13 - r) []))) s0
  xorNats ((shiftRows 3 s).map invSubByte) (rks.getD 0 [])

/-- Bytes as numbers. -/
def toNats (b : Bytes) : List Nat := b.map (·.toNat)

/-- Numbers as bytes. -/
def ofNats (l : List Nat) : Bytes := l.map (BitVec.ofNat 8)

/-- AES-256 encryption of one block. -/
def aesEncrypt (key blk : Bytes) : Bytes := ofNats (aesEncryptWith (roundKeys key) (toNats blk))

/-- Doubling in the CMAC field of 128 bits. -/
def cmacDouble (n : Nat) : Nat := if n < 2 ^ 127 then n * 2 else ((n * 2) % 2 ^ 128) ^^^ 0x87

/-- AES-256 CMAC (NIST SP 800-38B): 16 bytes. -/
def cmac (key msg : Bytes) : Bytes :=
  let rks := roundKeys key
  let l := beNat (ofNats (aesEncryptWith rks (List.replicate 16 0)))
  let k1 := cmacDouble l
  let k2 := cmacDouble k1
  let n := max 1 (ceilDiv msg.length 16)
  let blocks := chunk 16 n msg
  let tail := blocks.getD (n - 1) []
  let last := if tail.length = 16 then xorBytes tail (toBe 16 k1)
    else xorBytes (padTo 16 (tail ++ [0x80#8])) (toBe 16 k2)
  ofNats ((blocks.take (n - 1) ++ [last]).foldl (fun c b => aesEncryptWith rks (xorNats c (toNats b)))
    (List.replicate 16 0))

/-- Product in the field of GHASH (NIST SP 800-38D), bit 127 the first. -/
def ghashMul (x y : Nat) : Nat :=
  ((List.range 128).foldl (fun (zv : Nat × Nat) i =>
    (if bit x (127 - i) then zv.1 ^^^ zv.2 else zv.1,
      if zv.2 % 2 = 1 then (zv.2 / 2) ^^^ (0xE1 * 2 ^ 120) else zv.2 / 2)) (0, y)).1

/-- GHASH of a byte string, its last block padded with zeros, from a running value. -/
def ghash (h acc : Nat) (b : Bytes) : Nat :=
  (chunk 16 (ceilDiv b.length 16) b).foldl (fun y x => ghashMul (y ^^^ beNat (padTo 16 x)) h) acc

/-- The key stream of GCM for a 12-byte nonce, `n` blocks from counter `i`. -/
def gcmStream (rks : List (List Nat)) (nonce : Bytes) (i n : Nat) : Bytes :=
  (List.range n).flatMap (fun j => ofNats (aesEncryptWith rks (toNats (nonce ++ toBe 4 (i + j)))))

/-- The 16-byte tag of GCM over additional data and a ciphertext. -/
def gcmTag (rks : List (List Nat)) (nonce aad ct : Bytes) : Bytes :=
  let h := beNat (ofNats (aesEncryptWith rks (List.replicate 16 0)))
  let y := ghash h (ghash h 0 aad) ct
  xorBytes (toBe 16 (ghashMul (y ^^^ (8 * aad.length * 2 ^ 64 + 8 * ct.length)) h)) (gcmStream rks nonce 1 1)

/-- AES-256-GCM (NIST SP 800-38D) with a 12-byte nonce: the ciphertext and its full tag. -/
def gcmSeal (key nonce aad plain : Bytes) : Bytes :=
  let rks := roundKeys key
  let ct := xorBytes plain (gcmStream rks nonce 2 (ceilDiv plain.length 16))
  ct ++ gcmTag rks nonce aad ct

/-- AES-256-GCM opened: the plaintext where the tag verifies (R379). -/
def gcmOpen (key nonce aad sealed : Bytes) : Option Bytes :=
  let rks := roundKeys key
  let ct := sealed.take (sealed.length - 16)
  if sealed.length < 16 || sealed.drop (sealed.length - 16) != gcmTag rks nonce aad ct then none
  else some (xorBytes ct (gcmStream rks nonce 2 (ceilDiv ct.length 16)))

/-- The key derivation function of R363: `label` is ASCII text, `ctx` five bytes. -/
def kdf (key label ctx : Bytes) : Bytes :=
  cmac key ([1#8] ++ label ++ [0#8] ++ ctx ++ [1#8, 0#8]) ++ cmac key ([2#8] ++ label ++ [0#8] ++ ctx ++ [1#8, 0#8])

/-- The key check value of R366: the first three bytes of the CMAC of sixteen zero bytes. -/
def kcv (key : Bytes) : Nat := beNat ((cmac key (List.replicate 16 0#8)).take 3)

/-- One pass of the key unwrap (RFC 5649) over the blocks, `t` falling. -/
def unwrapSteps (rks : List (List Nat)) : Nat → Nat → Bytes → List Bytes → Bytes × List Bytes
  | 0, _, a, r => (a, r)
  | t + 1, n, a, r =>
    let i := t % n
    let b := ofNats (aesDecryptWith rks (toNats (xorBytes a (toBe 8 (t + 1)) ++ r.getD i [])))
    unwrapSteps rks t n (b.take 8) (r.set i (b.drop 8))

/-- AES key unwrap with padding (RFC 5649) of a 56-byte wrapped blob: the 48-byte plaintext, when the alternative
initial value holds with a message length indicator of exactly 48 (R367, Table 10.3). -/
def keyUnwrap (key wrapped : Bytes) : Option Bytes :=
  if wrapped.length ≠ 56 then none else
    let p := unwrapSteps (roundKeys key) 36 6 (wrapped.take 8) (chunk 8 6 (wrapped.drop 8))
    if beNat p.1 = 0xA65959A600000030 then some p.2.flatten else none

/-- Rotation right of a 64-bit number. -/
def rotr64 (n x : Nat) : Nat := x / 2 ^ n + (x % 2 ^ n) * 2 ^ (64 - n)

/-- The SHA-384 round constants, five to a number. -/
def shaRows : List Nat :=
  [0x428A2F98D728AE227137449123EF65CDB5C0FBCFEC4D3B2FE9B5DBA58189DBBC3956C25BF348B538,
   0x59F111F1B605D019923F82A4AF194F9BAB1C5ED5DA6D8118D807AA98A303024212835B0145706FBE,
   0x243185BE4EE4B28C550C7DC3D5FFB4E272BE5D74F27B896F80DEB1FE3B1696B19BDC06A725C71235,
   0xC19BF174CF692694E49B69C19EF14AD2EFBE4786384F25E30FC19DC68B8CD5B5240CA1CC77AC9C65,
   0x2DE92C6F592B02754A7484AA6EA6E4835CB0A9DCBD41FBD476F988DA831153B5983E5152EE66DFAB,
   0xA831C66D2DB43210B00327C898FB213FBF597FC7BEEF0EE4C6E00BF33DA88FC2D5A79147930AA725,
   0x06CA6351E003826F142929670A0E6E7027B70A8546D22FFC2E1B21385C26C9264D2C6DFC5AC42AED,
   0x53380D139D95B3DF650A73548BAF63DE766A0ABB3C77B2A881C2C92E47EDAEE692722C851482353B,
   0xA2BFE8A14CF10364A81A664BBC423001C24B8B70D0F89791C76C51A30654BE30D192E819D6EF5218,
   0xD69906245565A910F40E35855771202A106AA07032BBD1B819A4C116B8D2D0C81E376C085141AB53,
   0x2748774CDF8EEB9934B0BCB5E19B48A8391C0CB3C5C95A634ED8AA4AE3418ACB5B9CCA4F7763E373,
   0x682E6FF3D6B2B8A3748F82EE5DEFB2FC78A5636F43172F6084C87814A1F0AB728CC702081A6439EC,
   0x90BEFFFA23631E28A4506CEBDE82BDE9BEF9A3F7B2C67915C67178F2E372532BCA273ECEEA26619C,
   0xD186B8C721C0C207EADA7DD6CDE0EB1EF57D4F7FEE6ED17806F067AA72176FBA0A637DC5A2C898A6,
   0x113F9804BEF90DAE1B710B35131C471B28DB77F523047D8432CAAB7B40C724933C9EBE0A15C9BEBC,
   0x431D67C49C100D4C4CC5D4BECB3E42B6597F299CFC657E2A5FCB6FAB3AD6FAEC6C44198C4A475817]

/-- The round constant of a round. -/
def shaK (i : Nat) : Nat := (shaRows.getD (i / 5) 0) / 2 ^ (64 * (4 - i % 5)) % 2 ^ 64

/-- The SHA-384 initial hash value. -/
def shaInit : List Nat :=
  [0xCBBB9D5DC1059ED8, 0x629A292A367CD507, 0x9159015A3070DD17, 0x152FECD8F70E5939, 0x67332667FFC00B31, 0x8EB44A8768581511, 0xDB0C2E0D64F98FA7, 0x47B5481DBEFA4FA4]

/-- The SHA-512 family's message schedule, kept as the last sixteen words. -/
def shaNext (w : List Nat) : Nat :=
  let x := w.getD 1 0
  let y := w.getD 14 0
  let s0 := rotr64 1 x ^^^ rotr64 8 x ^^^ (x / 2 ^ 7)
  let s1 := rotr64 19 y ^^^ rotr64 61 y ^^^ (y / 2 ^ 6)
  (w.getD 0 0 + s0 + w.getD 9 0 + s1) % 2 ^ 64

/-- One round. -/
def shaRound (i w : Nat) (v : List Nat) : List Nat :=
  match v with
  | [a, b, c, d, e, f, g, h] =>
    let s1 := rotr64 14 e ^^^ rotr64 18 e ^^^ rotr64 41 e
    let ch := (e &&& f) ^^^ ((2 ^ 64 - 1 - e) &&& g)
    let t1 := h + s1 + ch + shaK i + w
    let s0 := rotr64 28 a ^^^ rotr64 34 a ^^^ rotr64 39 a
    let mj := (a &&& b) ^^^ (a &&& c) ^^^ (b &&& c)
    [(t1 + s0 + mj) % 2 ^ 64, a, b, c, (d + t1) % 2 ^ 64, e, f, g]
  | _ => v

/-- Rounds `i` onward of one block. -/
def shaRounds : Nat → Nat → List Nat → List Nat → List Nat
  | 0, _, _, v => v
  | n + 1, i, w, v => shaRounds n (i + 1) (w.drop 1 ++ [shaNext w]) (shaRound i (w.getD 0 0) v)

/-- One 128-byte block. -/
def shaBlock (h : List Nat) (blk : Bytes) : List Nat :=
  let v := shaRounds 80 0 ((chunk 8 16 blk).map beNat) h
  List.zipWith (fun a b => (a + b) % 2 ^ 64) h v

/-- SHA-384 of a byte string: 48 bytes. -/
def sha384 (b : Bytes) : Bytes :=
  let n := (b.length + 17 + 127) / 128
  let padded := b ++ [0x80#8] ++ List.replicate (128 * n - b.length - 17) 0#8 ++ toBe 16 (8 * b.length)
  (((chunk 128 n padded).foldl shaBlock shaInit).map (toBe 8)).flatten.take 48

/-- The prime of P-384. -/
def p384p : Nat := 2 ^ 384 - 2 ^ 128 - 2 ^ 96 + 2 ^ 32 - 1

/-- The order of P-384. -/
def p384n : Nat :=
  0xFFFFFFFFFFFFFFFFFFFFFFFFFFFFFFFFFFFFFFFFFFFFFFFFC7634D81F4372DDF581A0DB248B0A77AECEC196ACCC52973

/-- The coefficient b of P-384. -/
def p384b : Nat :=
  0xB3312FA7E23EE7E4988E056BE3F82D19181D9C6EFE8141120314088F5013875AC656398D8A2ED19D2A85C8EDD3EC2AEF

/-- The generator of P-384. -/
def p384g : Nat × Nat :=
  (0xAA87CA22BE8B05378EB1C71EF320AD746E1D3B628BA79B9859F741E082542A385502F25DBF55296C3A545E3872760AB7,
   0x3617DE4A96262C6F5D9E98BF9292DC29F8F41DBD289A147CE9DA3113B5F0B8C00A60B1CE1D7E819D7A431D7C90EA0E5F)

/-- Power modulo `m`, by the `k` low bits of the exponent. -/
def powMod (m : Nat) : Nat → Nat → Nat → Nat
  | 0, _, _ => 1 % m
  | k + 1, base, e =>
    let r := powMod m k (base * base % m) (e / 2)
    if e % 2 = 1 then r * base % m else r

/-- Inverse modulo a prime, by Fermat. -/
def invMod (m x : Nat) : Nat := powMod m 384 (x % m) (m - 2)

/-- Addition of points of P-384; `none` is the point at infinity. -/
def ecAdd (a b : Option (Nat × Nat)) : Option (Nat × Nat) :=
  match a, b with
  | none, q => q
  | q, none => q
  | some (x1, y1), some (x2, y2) =>
    if x1 = x2 && (y1 + y2) % p384p = 0 then none else
      let l := if x1 = x2 then (3 * x1 * x1 + (p384p - 3)) * invMod p384p (2 * y1) % p384p
        else (y2 + p384p - y1) * invMod p384p (x2 + p384p - x1) % p384p
      let x3 := (l * l + 2 * p384p - x1 - x2) % p384p
      some (x3, (l * (x1 + p384p - x3) + p384p - y1) % p384p)

/-- A multiple of a point, by the `k` low bits of the scalar. -/
def ecMul : Nat → Nat → Option (Nat × Nat) → Option (Nat × Nat)
  | 0, _, _ => none
  | k + 1, e, q =>
    let r := ecMul k (e / 2) (ecAdd q q)
    if e % 2 = 1 then ecAdd r q else r

/-- ECDSA verification on P-384 with SHA-384 (R402): signature `r`, `s` 48 bytes each, public key a point of the
curve. -/
def ecdsaVerify (pub : Nat × Nat) (msg sig : Bytes) : Bool :=
  let r := beNat (sig.take 48)
  let s := beNat (slice sig 48 48)
  let onCurve := pub.1 < p384p && pub.2 < p384p &&
    (pub.2 * pub.2 + 3 * pub.1) % p384p == (pub.1 * pub.1 * pub.1 + p384b) % p384p
  if sig.length = 96 && onCurve && 0 < r && r < p384n && 0 < s && s < p384n then
    let z := beNat (sha384 msg)
    let w := invMod p384n s
    match ecAdd (ecMul 384 (z * w % p384n) (some p384g)) (ecMul 384 (r * w % p384n) (some pub)) with
    | some (x, _) => x % p384n == r
    | none => false
  else false

end Sys2Proof.Machine
end

