-- ==== Sys2Proof/Config.lean ====
section
/-! DEFINITION. The values that the spec leaves to the drive, as constants with no body: nothing can be proved of
them. Where a command reads one that may differ each time, it applies it to the counter `State.free` and advances the
counter (assumption log 3). -/
namespace Sys2Proof

/-- A symbol between the stages of the skiver (R313, R314): a byte, or a decimal run as its count of digits, their binary value and
its sign nibble. -/
inductive Symbol where
  | byte (b : Byte)
  | packed (count value sign : Nat)
  | zoned (count value sign : Nat)
  deriving DecidableEq, Repr, Inhabited

end Sys2Proof

namespace Sys2Proof.Config

/-- The body that the coding stages of the skiver give, with the LZ stage or without it (R313): the spec gives no bit format. -/
opaque squeeze : Bool → List Symbol → Bytes

/-- What the checking decoder makes of a body (R315). -/
opaque expand : Bool → Bytes → List Symbol

/-- The method byte of a chunk frame: by compression class, or raw (R315). -/
opaque skiverMethod : Option Nat → Byte

/-- The flash channel on which a value is placed (R279, R293). -/
opaque channelOf : Nat → Bytes → Nat → Nat

/-- The estimate of ticks left in a BUSY reply (R91, 3.8.1). -/
opaque busyTicks : Nat → Nat

/-- The percentage in a BUSY reply, before it is held from falling (R91, 3.8.1). -/
opaque busyPercent : Nat → Nat

/-- A sketch of an exact count in QUERY METER (R127): the error has no hard bound. -/
opaque sketch : Nat → Nat → Nat

/-- Ticks that destage needs, at its present rate, to free so many bytes (R300). -/
opaque destageTicks : Nat → Nat → Nat

/-- The index's own 64-bit key hash (R190). -/
opaque fingerprint : Bytes → Nat

/-- The maker's four verification keys in mask ROM (R404), as points of P-384. -/
opaque makerKey : Nat → Nat × Nat

/-- Core voltage of a clock step, in mV, from the fused table (Table 8.7). -/
opaque vddOf : Nat → Nat

/-- The check bits of a data word other than zero (R304): the spec names no code but SECDED. -/
opaque secded : BitVec 64 → BitVec 8

/-- The structure in which a word of a memory lies (R307): the spec gives no layout. -/
opaque structAt : Nat → Nat → Struct

/-- The fixed set of blocks that are run as pSLC (R293). -/
opaque pslcBlock : BlockId → Bool

/-- The TLC blocks of the drive (R293, R328). -/
opaque tlcBlocks : Nat

/-- The parity position of a stripe in block 0 (R295). -/
opaque parityStart : Nat

/-- The written codewords that a pass over flash has to read (Table 8.5). -/
opaque writtenCodewords : Nat → Nat

/-- How many of a tenant's values an interrupted REKEY had already encrypted again (R131). -/
opaque rekeyedSoFar : Nat → Nat

/-- The free rule entry that a load takes: a rotation of the candidates (R343 step 2). -/
opaque freeEntry : Nat → Nat

/-- The drive slot that a newly assigned pattern slot takes, as a rotation of the free ones (R349). -/
opaque freeSlot : Nat → Nat

/-- The result of a division or other corner for which the spec states none. -/
opaque openValue : Nat → Nat → Nat

end Sys2Proof.Config
end

