-- ==== Sys2Proof/Machine/State.lean ====
section
/-! DEFINITION. The state of the drive as plain data, and the state right after a cold start. -/
namespace Sys2Proof.Machine
open Sys2Proof

/-- Why the machine stops with a fault. -/
inductive Fault where
  /-- Raised by PARTIAL_WORD_WRITE when the address lies outside the memory it names (Table 0.4 gives each memory its
  size), or the bytes do not fit in one 8-byte word. Safe: the model stops and claims nothing. -/
  | noSuchWord
  deriving DecidableEq, Repr

/-- Why a command is refused by the model. -/
inductive Refusal where
  /-- Raised by no command: every row of the command table has its meaning. Safe: the model stops. -/
  | notModelled (mnemonic : String)
  deriving DecidableEq, Repr

/-- The drive. `tick` is the tick count (R8). `spaces` holds the sequence spaces of functions 0 to 31, 62 and 63, eight
each (R82). `counters` holds the 48-bit counters that are not zero, by the address of their _LO word (R22, R23);
`latches` the _HI and _H latches of each path, by the address of the _LO or _L word (R22, R467). `creating` and
`removing` pair a tenant with the descriptor of its TENANT_CREATE or TENANT_REMOVE. `free` is the model's own counter for
free values, no register of the drive (assumption log 3). `pending` is the queue of commands that wait. -/
structure State where
  pending  : List Instr
  tick     : Nat
  ident    : Ident
  portA    : PortState
  portB    : PortState
  spaces   : List (List Space)
  descs    : List Desc
  nextDesc : Nat
  segs     : List Seg
  tenants  : List Tenant
  creating : List (Nat × Nat × Profile)
  removing : List (Nat × Nat)
  ledger   : Ledger
  awl      : Awl
  cinch    : Cinch
  media    : Media
  secure   : Secure
  update   : Update
  power    : Power
  boot     : Boot
  smbus    : Smbus
  events   : Events
  span     : Span
  counters : List (Nat × Nat)
  latches  : List ((Path × Nat) × Nat)
  free     : Nat
  deriving DecidableEq, Repr

/-- A port's link-local IPv6 address, from its MAC by modified EUI-64: the maker's saved setting (R443). -/
def linkLocal (mac : Bytes) : BitVec 128 :=
  match mac with
  | [m0, m1, m2, m3, m4, m5] =>
    (0xFE80#16 ++ 0#48 ++ (m0 ^^^ 0x02#8) ++ m1 ++ m2 ++ 0xFF#8 ++ 0xFE#8 ++ m3 ++ m4 ++ m5 : BitVec 128)
  | _ => 0#128

/-- The addresses of a port after a cold start that saved nothing (Table 6.4, R443). -/
def Addrs.maker (mac : Bytes) : Addrs :=
  { tkxPort := 7310, ipv4 := 0#32, ipv6 := linkLocal mac, rawEn := false }

/-- A host port after a cold start (Table 6.4): ENABLE, FEC10_REQ, EEE_ADV and LLDP_TX set, MTU 9,216, LPI_HOLD 4. -/
def PortState.reset (mac : Bytes) : PortState :=
  { ctrl := 0xB1#8, linkEvt := 0#4, up := false, anStart := none, an := none
    page := { kr25 := false, kr25s := false, kr10 := false, f0 := false, f1 := false, f2 := false, f3 := false, eee := false }
    nullPages := false, withdrawn := false, fallback := false,
    txLpi := false, rxLpi := false, eee := none, ownTx := 1, twInUse := 1, twNext := none, lpiOk := false,
    lldpLast := none, lldpDue := false, lldpIn := [], idleSince := 0, addrs := Addrs.maker mac, addrHist := [],
    txMtu := 9216, lpiHold := 4, admitted := [], short := [], bulkFirst := [], bulk := [], reg := none, sent := [] }

/-- A sequence space of a key that has just been loaded (R86, R87): number 0 counts as accepted, for the first acceptable
one is 1. -/
def Space.fresh : Space := { h := 0, accepted := [0], c := 0, d := 2 ^ 32, dNext := none }

/-- The profile of an absent tenant. -/
def Profile.absent : Profile :=
  { quota := 0, floor := 0, weight := 0, share := 0, keyslots := 0, authReq := true, closeOk := false, lease := 0 }

/-- A metering period that is not open. -/
def Period.none : Period :=
  { number := 0, openTick := 0, closeTick := 0, stepBack := false, requests := 0, bytesRead := 0, bytesWritten := 0,
    busy := 0 }

/-- A tenant id with no tenant (Table 7.1). -/
def Tenant.absent : Tenant :=
  { state := .absent, endStopped := false, resetAt := 0, resetBy := [], emptied := false, startDue := false,
    profile := Profile.absent,
    coll := Option.none, recs := [], holds := [], nextHold := 1, cursors := [], gens := [], longOp := Option.none,
    day := 0, closeTime := 0, closeShown := 0, closeTick := 0, closeSeq := 0, closedOnce := false, meterLen := 60, meterSel := 0,
    period := Period.none, closed := [], pslots := [] }

/-- The engine and order of a drive that has issued no sequence number (R32, R178). -/
def Ledger.reset : Ledger :=
  { nextSeq := 1, order := [], journal := [], nextRecord := 0, freePtr := 0, half := Option.none, reads := [], digest := List.replicate 48 0#8, digestCount := 0,
    tree := none, peak := 0, wall := 0, debt := 0, slewing := false, stall := 0, timeSet := false, wallJournal := 0, wallJournalAt := 0, tickJournal := 0,
    journalHigh := false }

/-- A pattern slot with no owner. -/
def PatSlot.empty : PatSlot :=
  { owner := none, bank0 := none, bank1 := none, current := false, load := [], persisted := none }

/-- Empty tiles, view 0 (Table 9.8). -/
def Awl.reset : Awl :=
  { rules := [], view := false, loading := none, rebuildUntil := 0,
    slots := List.replicate 64 PatSlot.empty, scans := [], stolen := (0, []), entrySel := 0, laneSel := 0 }

/-- A requester with nothing pending (R280). -/
def Requester.idle : Requester := { k := 0, l := 0, b := 0, wait := 0, starve := 0, flows := [] }

/-- The cinch after a cold start (Table 7.6). -/
def Cinch.reset : Cinch :=
  { chans := List.replicate 16 { reqs := List.replicate 35 Requester.idle, owner := none, beats := 0 }, preemptEn := true,
    margin := 65536, starveTicks := 250, wSpan := 256, wScrub := 64, wUpdate := 32, starveT := 0#32, starveS := 0#3,
    viewCh := 0, viewReq := 0 }

/-- Media of a drive that has stored nothing: the spare is that of Table 8.1, in 0.01 % of raw. -/
def Media.reset : Media :=
  { words := [], blocks := [], retiredBlocks := [], retiredDies := [], age := 0, ageRate := 2 ^ 32, ageFrac := 0,
    ratedAt := 0, life := (List.replicate 22 0).set 18 100, lifeCopy := (List.replicate 22 0).set 18 100, copiedAt := 0,
    wearEnd := false, spare := 3108, walked := [0, 0, 0, 0, 0], firstPass := true, visited := [], recent := [], rrefDie := 0, rrefBlock := 0, lifeSel := 0 }

/-- A drive whose life-cycle array is blank: MAKER (R387), with no tenant key. -/
def Secure.reset : Secure :=
  { rows := List.replicate 48 0#64, okekSpent := 0, rebindSpent := 0, nsbSpent := List.replicate 32 0,
    drk := List.replicate 32 0#8, intent := none, lcHeld := none, lcDesc := none, lcRunning := false, serials := [], tack := [],
    mgmtMak := none, keyLoads := [], entFail := false, seeded := false, reseeds := 0, reseedAt := 0,
    fuseSel := 0 }

/-- An empty firmware slot. -/
def Image.empty : Image := { manifest := [], blocks := [] }

/-- Field update with no session (Table 11.7). -/
def Update.reset : Update :=
  { active := Image.empty, fallbackI := Image.empty, stage := Image.empty, session := .idle, received := [],
    lastOp := 0, lastResult := 0, starts := 0, phase := 0, copying := 0, done := [], again := 0, levelWarn := false,
    commitErr := (0, 0), minSec := 0, revoked := 0#4, dataFmt := 0, cfgFmt := 0, selfTestOk := false, startedAt := 0,
    testedAt := none, activated := false, halted := none, blockDescs := [], commits := [],
    newRecords := false }

/-- A SerDes lane that has not adapted. -/
def Lane.reset : Lane := { tx := 0, ctle := 0, taps := [0, 0, 0, 0, 0], eye := 0, limitFor := 0, lowFor := 0 }

/-- Power and thermal state after a cold start: core at 1.6 GHz (R323), TCXO (R438), Table 8.10. -/
def Power.reset : Power :=
  { rails := .on, supplyGood := true, pwrDis := false, resetN := true, leverOpen := true, actUntil := 0, td := 40,
    tj := 40, tbank := 40, sensorBad := false, reduction := 0, reducedAt := 0, clockCap := false, thrStart := 70, vfStep := 16, vfVolt := 16, vfUp := false,
    vfSafe := none, vfCap := 18, vfGood := 0, margin := 0, powerCap := 18, powerHigh := false, mv := 12000, cw := 0,
    energy := 0, charging := true, measureDue := 0, holdupFail := false, holdupLow := false, thermal := false,
    tripped := false, tripTemps := none, lanes := List.replicate 4 Lane.reset, srcReq := false, srcIn := false,
    tickOk := false, slewUntil := 0 }

/-- At the first phase of a start-up after power loss (R445, Table 12.9). -/
def Boot.reset : Boot :=
  { phase := 1, pending := none, cause := 0, rtype := 3, saved := none }

/-- SMBus with no pointer set. -/
def Smbus.reset : Smbus := { ptr := 0, count := 1, addrErr := false, pecErr := false, out := [] }

/-- No event; every alert class enabled (Table 12.9). -/
def Events.reset : Events := { queue := [], atTick := 0, taken := 0, lost := 0, pend := 0#8, en := 0xFF#8 }

/-- A drive in no span (Table 5.10). -/
def Span.reset : Span :=
  { state := .none, me := 0, cfg := none, identity := none, staged := List.replicate 96 0#8, cfgBad := false,
    reconfig := false, nextCfg := none, wrapped := false, brokenDn := false, brokenUp := false, loopLong := false,
    present := [], joins := [], removes := [], master := 0, masterWall := 0, masterTick := 0, rotation := 0,
    slotTick := 0, orderNext := 0, commitOrder := 0, offset := 0, phase := 0, slew := 0, loopDelay := 0, upDelay := 0,
    forfeitRun := 0, forfeits := 0#16, silent := [], rein := none, reinHere := false, inSlot := false, slotWall := 0,
    windowOpen := false, forfeiting := false, regen := false, own := [], later := [], system := [],
    outsiders := [], rotStart := 0, slotAt := none, batches := [], sets := [],
    setDigest := [], markAt := 0, toReport := [], reports := [], resync := none, join := none, leave := none,
    laneUp := { lock := false, since := 0 }, laneDn := { lock := false, since := 0 }, spanLo := 0, spanHi := 0,
    probeLast := 0, rxUp := 0, rxDn := 0, tx := [], sentP := 0, sentS := 0, out := [] }

/-- The fused identity of the model's drive (assumption log 2). -/
def Ident.reset : Ident :=
  { cap := 1536, hwRev := 0, serial := List.replicate 12 0x30#8, instanceId := 0,
    macA := [0x02#8, 0#8, 0#8, 0#8, 0#8, 0x0A#8], macB := [0x02#8, 0#8, 0#8, 0#8, 0#8, 0x0B#8] }

/-- The drive right after a cold start, at the first phase of start-up, never claimed and with no tenant. -/
def State.reset : State :=
  { pending := [], tick := 0, ident := Ident.reset, portA := PortState.reset Ident.reset.macA,
    portB := PortState.reset Ident.reset.macB, spaces := List.replicate 34 (List.replicate 8 Space.fresh), descs := [],
    nextDesc := 1, segs := [], tenants := List.replicate 32 Tenant.absent, creating := [], removing := [],
    ledger := Ledger.reset, awl := Awl.reset, cinch := Cinch.reset, media := Media.reset, secure := Secure.reset,
    update := Update.reset, power := Power.reset, boot := Boot.reset, smbus := Smbus.reset, events := Events.reset,
    span := Span.reset, counters := [], latches := [], free := 0 }

end Sys2Proof.Machine
end

