-- ==== Sys2Proof/Machine/Ops.lean ====
section
/-! DEFINITION. The named operations over the state: parts by number, counters and latches, events, descriptors,
sequence spaces, keys and the life cycle, and word memory. -/
namespace Sys2Proof.Machine
open Sys2Proof

/-! ### Parts of the state by number -/

/-- A host port's state. -/
def State.port (s : State) : Port → PortState
  | .a => s.portA
  | .b => s.portB

/-- The state with one host port changed. -/
def State.modPort (s : State) (p : Port) (f : PortState → PortState) : State :=
  match p with
  | .a => { s with portA := f s.portA }
  | .b => { s with portB := f s.portB }

/-- A tenant; an id above 31 reads as absent. -/
def State.tenant (s : State) (t : Nat) : Tenant := s.tenants.getD t Tenant.absent

/-- The state with one tenant changed. -/
def State.modTenant (s : State) (t : Nat) (f : Tenant → Tenant) : State :=
  { s with tenants := s.tenants.modify t f }

/-- The descriptor with an id. -/
def State.desc (s : State) (id : Nat) : Option Desc := s.descs.find? (fun d => d.id == id)

/-- The state with one descriptor changed. -/
def State.modDesc (s : State) (id : Nat) (f : Desc → Desc) : State :=
  { s with descs := s.descs.map (fun d => if d.id = id then f d else d) }

/-- The state without one descriptor. -/
def State.dropDesc (s : State) (id : Nat) : State := { s with descs := s.descs.filter (fun d => d.id != id) }

/-- A descriptor put in a phase. -/
def State.setPhase (s : State) (id : Nat) (ph : Phase) : State := s.modDesc id (fun d => { d with phase := ph })

/-- A free value: the counter that picks it, and the state with the counter advanced (assumption log 3). -/
def State.fresh (s : State) : Nat × State := (s.free, { s with free := s.free + 1 })

/-- The port's number (Table 13.4). -/
def portNo : Port → Nat
  | .a => 0
  | .b => 1

/-- The base address of a port's block (R258). -/
def portBase : Port → Nat
  | .a => 0x00010000
  | .b => 0x00018000

/-! ### Counters (R22, R23) -/

/-- The value of a counter, by the address of its _LO word. -/
def State.counter (s : State) (addr : Nat) : Nat := (assoc s.counters addr).getD 0

/-- A counter raised, stopping at 2 ^ 48 - 1 (R23). A sum of zero keeps the list without an entry. -/
def State.bumpBy (s : State) (addr n : Nat) : State :=
  let v := min (s.counter addr + n) (2 ^ 48 - 1)
  if v = 0 then s else { s with counters := insertSorted addr v s.counters }

/-- A counter raised by one. -/
def State.bump (s : State) (addr : Nat) : State := s.bumpBy addr 1

/-- A counter cleared. -/
def State.clearCounter (s : State) (addr : Nat) : State := { s with counters := eraseKey addr s.counters }

/-- A latch as its path reads it: zero until the first read of the low word (R22, R467). -/
def State.latch (s : State) (path : Path) (addr : Nat) : Nat :=
  ((s.latches.find? (fun p => p.1 == (path, addr))).map (·.2)).getD 0

/-- A latch set. -/
def State.setLatch (s : State) (path : Path) (addr v : Nat) : State :=
  { s with latches := ((path, addr), v) :: s.latches.filter (fun p => p.1 != (path, addr)) }

/-- A port's counter, by its offset in Table 6.5. -/
def State.bumpPort (s : State) (p : Port) (off : Nat) : State := s.bump (portBase p + off)

/-- A tenant's counter, by its offset in Table 7.4. -/
def State.bumpTnt (s : State) (t off : Nat) : State := s.bump (0x00030000 + 0x400 * t + off)

/-- A tenant's key-page counter, by its offset in Table 10.11. -/
def State.bumpTkp (s : State) (t off : Nat) : State := s.bump (0x00080000 + 0x1000 * t + off)

/-- A counter of MED_ (Table 8.9). -/
def State.bumpMed (s : State) (off : Nat) : State := s.bump (0x00060000 + off)

/-! ### Life cycle (R385 to R389) -/

/-- The code of a life-cycle state (Table 10.7; MAKER is written 4 as a to-state). -/
def LcState.code : LcState → Nat
  | .maker => 0
  | .owned => 1
  | .locked => 2
  | .ret => 3
  | .scrapped => 5

/-- The state that a target or to-state code names (R138, Table 10.7). -/
def lcOfTarget : Nat → Option LcState
  | 1 => some .owned
  | 2 => some .locked
  | 3 => some .ret
  | 4 => some .maker
  | 5 => some .scrapped
  | _ => none

/-- The to-state code of a state (Table 10.7). -/
def LcState.target : LcState → Nat
  | .maker => 4
  | .owned => 1
  | .locked => 2
  | .ret => 3
  | .scrapped => 5

/-- A row of the life-cycle array built from its fields (Table 10.7). -/
def lcRow (done : Bool) (frm to_ : LcState) (k tick : Nat) : BitVec 64 :=
  let body := [BitVec.ofNat 8 (if done then 0x5A else 0xA5), BitVec.ofNat 8 (frm.code * 16 + to_.target),
    BitVec.ofNat 8 k] ++ toBe 4 tick
  BitVec.ofNat 64 (beNat body * 256 + crc8 body)

/-- The transitions of Table 10.8, as pairs of from-state code and to-state code. -/
def lcPairs : List (Nat × Nat) := [(0, 1), (1, 2), (2, 1), (1, 3), (2, 3), (3, 4), (3, 5)]

/-- A row read as (kind is DONE, from code, to code, serial), when it is valid (R386). -/
def lcRead (row : BitVec 64) : Option (Bool × Nat × Nat × Nat) :=
  let n := row.toNat
  let kind := bits n 63 56
  if (kind = 0xA5 || kind = 0x5A) && crc8 (toBe 7 (n / 256)) == n % 256
      && lcPairs.contains (bits n 55 52, bits n 51 48) then
    some (kind == 0x5A, bits n 55 52, bits n 51 48, bits n 47 40)
  else none

/-- The row numbers of pair k (R386). -/
def lcRowOf (k : Nat) : Nat := if k = 23 then 46 else 2 * k

/-- The INTENT row of pair k. -/
def Secure.intentRow (x : Secure) (k : Nat) : BitVec 64 := x.rows.getD (lcRowOf k) 0#64

/-- The DONE row of pair k. -/
def Secure.doneRow (x : Secure) (k : Nat) : BitVec 64 := x.rows.getD (lcRowOf k + 1) 0#64

/-- Pair k is used: its INTENT row is valid or void, that is every bit blown (R387, R393). -/
def Secure.pairUsed (x : Secure) (k : Nat) : Bool :=
  match lcRead (x.intentRow k) with
  | some (d, _, _, _) => !d
  | none => x.intentRow k == BitVec.allOnes 64

/-- The pair serials, lowest first. -/
def lcSerials : List Nat := (List.range 23).map (· + 1)

/-- The life-cycle state that the array gives (R387). -/
def Secure.lcFused (x : Secure) : LcState :=
  (lcSerials.foldl (fun st k =>
    match lcRead (x.doneRow k) with
    | some (true, _, to_, _) => (lcOfTarget to_).getD st
    | _ => st) .maker)

/-- The drive's life-cycle state: that of the array, but in the tick in which a DONE row was completed still the one before (R387,
R391). -/
def Secure.lc (x : Secure) : LcState := x.lcHeld.getD x.lcFused

/-- A row of the array burned: blown bits stay blown (R386). -/
def Secure.burnRow (x : Secure) (row : Nat) (v : BitVec 64) : Secure :=
  { x with rows := x.rows.modify row (· ||| v) }

/-- The INTENT row that an intent asks for (R391). -/
def Intent.row (i : Intent) : BitVec 64 := lcRow false i.frm i.to_ i.k (i.tick % 2 ^ 32)

/-- The INTENT row of a transition is burned 81 ticks after its intent was written (R386, R391 step 2; assumption log 73); and a new
state holds from the tick after its DONE row. -/
def Secure.tickFuses (x : Secure) (tick : Nat) : Secure :=
  let x := if x.lcHeld.isSome then { x with lcHeld := none, lcRunning := false } else x
  match x.intent with
  | some i => if x.lcRunning && i.tick + 82 ≤ tick then x.burnRow (lcRowOf i.k) i.row else x
  | none => x

/-- RETURN INTENT rows (R387). -/
def Secure.returnsUsed (x : Secure) : Nat :=
  (lcSerials.filter (fun k => match lcRead (x.intentRow k) with
    | some (false, _, 3, _) => true
    | _ => false)).length

/-- The epoch e: the number of RETURN transitions completed or begun (R363, R387). -/
def Secure.epoch (x : Secure) : Nat := x.returnsUsed

/-- Transitions left (R387). -/
def Secure.transLeft (x : Secure) : Nat :=
  22 - ((lcSerials.take 22).filter x.pairUsed).length

/-- Returns left (R387). -/
def Secure.returnsLeft (x : Secure) : Nat := 3 - x.returnsUsed

/-- The lowest pair serial of rows 2 to 45 that is not used. -/
def Secure.nextPair (x : Secure) : Option Nat := (lcSerials.take 22).find? (fun k => !x.pairUsed k)

/-- Function 63 and JTAG exist (R6, R385). -/
def State.makerOpen (s : State) : Bool := s.secure.lc == .maker || s.secure.lc == .ret

/-! ### Keys (chapter 10) -/

/-- ASCII text as bytes. -/
def ascii (t : String) : Bytes := t.toList.map (fun c => BitVec.ofNat 8 c.toNat)

/-- The context of a derivation: instance id and epoch (R363). -/
def State.ctx (s : State) (e : Nat) : Bytes := toBe 4 s.ident.instanceId ++ [BitVec.ofNat 8 e]

/-- The claim secret of an epoch (Table 10.1). -/
def State.claimSecret (s : State) (e : Nat) : Bytes := kdf s.secure.drk (ascii "CLAIM") (s.ctx e)

/-- The transport key of an epoch. -/
def State.transportKey (s : State) (e : Nat) : Bytes := kdf (s.claimSecret e) (ascii "WRAP") (s.ctx e)

/-- The claim message-authentication key of an epoch. -/
def State.claimMak (s : State) (e : Nat) : Bytes := kdf (s.claimSecret e) (ascii "MAC") (s.ctx e)

/-- The maker's message-authentication key. -/
def State.makerMak (s : State) : Bytes := kdf s.secure.drk (ascii "MAKER") (s.ctx 0)

/-- The key of a tack-room slot: the exclusive or of its shares (R370). -/
def KeySlot.key (k : KeySlot) : Bytes := xorBytes k.share0 k.share1

/-- The owner key-encryption key's slot, when there is one that is not lost. -/
def Secure.okekSlot (x : Secure) : Option KeySlot := x.tack.find? (fun k => k.kind == .okek && !k.lost)

/-- A function's MAK slot (R370). -/
def Secure.makSlot (x : Secure) (fn : Nat) : Option KeySlot :=
  x.tack.find? (fun k => k.kind == .mak && k.fn == fn && !k.lost)

/-- A tenant's data key generation in a state. -/
def Secure.genIn (x : Secure) (t : Nat) (g : GenState) : Option KeySlot :=
  x.tack.find? (fun k => k.kind == .data && k.fn == t && k.gstate == g && !k.lost)

/-- The message-authentication key in force for a function (Table 10.6): tenants by their slot; function 62 by the
claim key in MAKER and RETURN and by the management MAK in OWNED and LOCKED; function 63 by the maker MAK. -/
def State.macKey (s : State) (fn : Nat) : Option Bytes :=
  if fn = 63 then (if s.makerOpen then some s.makerMak else none)
  else if fn = 62 then
    match s.secure.lc with
    | .maker => some (s.claimMak s.secure.epoch)
    | .ret => some (s.claimMak (s.secure.epoch - 1))
    | .owned | .locked => match s.secure.makSlot 62 with
      | some k => some k.key
      | none => s.secure.mgmtMak
    | .scrapped => none
  else (s.secure.makSlot fn).map KeySlot.key

/-- The tenant's write key: PENDING from the first reply of a REKEY onward, else CURRENT (Table 10.5). A PENDING
generation that encrypts values after an interrupted REKEY is still the write key. -/
def State.writeGen (s : State) (t : Nat) : Option KeySlot :=
  let pend := s.secure.genIn t .pending
  let rekeying := match (s.tenant t).longOp with
    | some l => l.kind == .rekey
    | none => false
  let begun := match pend with
    | some k => rekeying || (s.tenant t).recs.any (fun r => r.gen == k.gen)
    | none => false
  if begun then pend else s.secure.genIn t .current

/-- Counter values that a generation has left (R376): the counter stops at 2 ^ 48. -/
def KeySlot.left (k : KeySlot) : Nat := 2 ^ 48 - k.nonce

/-! ### Sequence spaces (2.5) -/

/-- The place of a function's spaces: 0 to 31, then 62 and 63. -/
def fnIndex (fn : Nat) : Nat := if fn = 62 then 32 else if fn = 63 then 33 else fn

/-- One sequence space. -/
def State.space (s : State) (fn sp : Nat) : Space := (s.spaces.getD (fnIndex fn) []).getD sp Space.fresh

/-- The state with one sequence space changed. -/
def State.modSpace (s : State) (fn sp : Nat) (f : Space → Space) : State :=
  { s with spaces := s.spaces.modify (fnIndex fn) (fun l => l.modify sp f) }

/-- A key load or rotation restarts all eight spaces of its function (R86, R87). -/
def State.restartSpaces (s : State) (fn : Nat) : State :=
  { s with spaces := s.spaces.modify (fnIndex fn) (fun _ => List.replicate 8 Space.fresh) }

/-- The extended number that a low word stands for (R82): of the three candidates that are not below 0, the one
nearest H, and the lower of two equally near. -/
def Space.extend (x : Space) (low : Nat) : Nat :=
  let hh := x.h / 2 ^ 32
  let cands := (if hh = 0 then [] else [(hh - 1) * 2 ^ 32 + low]) ++ [hh * 2 ^ 32 + low, (hh + 1) * 2 ^ 32 + low]
  let dist (e : Nat) : Nat := (e - x.h) + (x.h - e)
  cands.foldl (fun best e => if dist e < dist best then e else best) (cands.headD low)

/-- An extended number that passes the window check of R84. -/
def Space.admits (x : Space) (e : Nat) : Bool := x.h < e || (x.h < e + 64 && !x.accepted.contains e)

/-- The background write of D + 2 ^ 32 begun where H has passed D - 2 ^ 31 and none is under way (R86). -/
def Space.raiseD (x : Space) : Space :=
  { x with dNext := if x.d < x.h + 2 ^ 31 && x.dNext.isNone then some (x.d + 2 ^ 32) else x.dNext }

/-- An accepted number marked (R84), and the ceiling C raised first when the number lies above it (R85). -/
def Space.mark (x : Space) (e : Nat) : Space :=
  let h := max x.h e
  Space.raiseD { x with
    h := h
    accepted := (e :: x.accepted).filter (fun n => h < n + 64)
    c := if x.c < e then (e / 65536 + 1) * 65536 else x.c }

/-- A space as a start of the controller resumes it: H = C and every number up to C accepted (R85). H may have passed
D - 2 ^ 31, after a rebuild of C from D above all (R86). -/
def Space.resume (x : Space) : Space :=
  Space.raiseD { x with
    h := x.c, accepted := (List.range 64).filterMap (fun i => if i ≤ x.c then some (x.c - i) else none) }

/-! ### Events (13.2) -/

/-- The GLB_ALERT class bit of an event code, `none` for an info event (Table 13.4). -/
def alertBit (code : Nat) : Option Nat :=
  if [0x8002, 0x8502, 0x8605].contains code then none
  else if code = 0x8001 || code = 0x8003 then some 0
  else some (bits code 11 8)

/-- Taking a position among the events of a tick (R460): the number, when one of the 256 is left. -/
def Events.take (x : Events) (tick : Nat) : Option Nat × Events :=
  let n := if x.atTick = tick then x.taken else 0
  if n < 256 then (some (256 * tick + n), { x with atTick := tick, taken := n + 1 }) else (none, { x with atTick := tick, taken := n })

/-- One more event is lost (R463): counted in the waiting EVENTS_LOST, or kept for the next one. -/
def Events.lose (x : Events) : Events :=
  if x.queue.any (fun e => e.code == 0x8703) then
    { x with queue := x.queue.map (fun e => if e.code = 0x8703 then { e with c := min (e.c + 1) 0xFFFFFFFF } else e) }
  else { x with lost := x.lost + 1 }

/-- EVENTS_LOST is queued when losses wait and there is room and a position for it (R463). -/
def Events.flush (x : Events) (tick wall : Nat) : Events :=
  if x.lost = 0 || x.queue.length ≥ 1024 || x.queue.any (fun e => e.code == 0x8703) then x
  else match x.take tick with
    | (some n, y) =>
      { y with
        queue := y.queue ++ [{ number := n, code := 0x8703, a := 0, b := 0, c := min x.lost 0xFFFFFFFF, wall := wall }]
        lost := 0
        pend := y.pend ||| 0x80#8 }
    | (none, y) => y

/-- The class bit of an event set (R464). -/
def Events.alert (x : Events) (code : Nat) : Events :=
  match alertBit code with
  | some i => { x with pend := x.pend ||| BitVec.ofNat 8 (2 ^ i) }
  | none => x

/-- An event raised (R460, R463, R464): the class bit, a position, then coalesced, queued or lost. -/
def Events.raise (x : Events) (tick wall code a b c : Nat) : Events :=
  let x := (x.flush tick wall).alert code
  match x.take tick with
  | (n, y) =>
    if y.queue.any (fun e => e.code == code && e.a == a && e.b == b) then y
    else match n with
      | some num =>
        if y.queue.length < 1024 then
          { y with queue := y.queue ++ [{ number := num, code := code, a := a, b := b, c := c, wall := wall }] }
        else y.lose
      | none => y.lose

/-- An event raised by the drive; in SCRAPPED none is (R460). -/
def State.raise (s : State) (code a b c : Nat) : State :=
  if s.secure.lc = .scrapped then s
  else { s with events := s.events.raise s.tick s.ledger.wall code a b c }

/-! ### Word memory under SECDED (8.3) -/

/-- The bytes of a memory (Table 0.4). -/
def Mem.size : Mem → Nat
  | .sram => 96 * 2 ^ 20
  | .dram => 16 * 2 ^ 30
  | .mram => 512 * 2 ^ 20

/-- One key for the words of the three memories: memory and word number. -/
def Mem.word (m : Mem) (addr : Nat) : Nat :=
  (match m with
    | .sram => 0
    | .dram => 2 ^ 32
    | .mram => 2 ^ 33) + addr / 8

/-- The check bits of a data word; those of zero are 0x00 (R304). -/
def checkOf (d : BitVec 64) : BitVec 8 := if d = 0#64 then 0#8 else Config.secded d

/-- A data word with fresh check bits (R304). -/
def Cell.fresh (d : BitVec 64) : Cell := { data := d, check := checkOf d }

/-- A poison word: data zero, check bits 0x03 (R306). -/
def Cell.poisoned : Cell := { data := 0#64, check := 0x03#8 }

/-- What an unlisted word holds: zero data with no error (assumption log 4). -/
def Cell.zero : Cell := { data := 0#64, check := 0#8 }

/-- A word as it stands. -/
def readWord (l : List (Nat × Cell)) (k : Nat) : Cell := (assoc l k).getD Cell.zero

/-- A word written, keeping the form canonical: rising keys, and no entry that equals what an unlisted word holds. -/
def writeWord (l : List (Nat × Cell)) (k : Nat) (c : Cell) : List (Nat × Cell) :=
  if c = Cell.zero then eraseKey k l else insertSorted k c l

/-- The canonical form of word memory. -/
def wordsWf : List (Nat × Cell) → Bool
  | [] => true
  | [p] => p.2 != Cell.zero
  | p :: q :: rest => p.2 != Cell.zero && p.1 < q.1 && wordsWf (q :: rest)

/-- The data of a word with bytes written from a byte offset, byte 0 least significant. -/
def mergeBytes (d : BitVec 64) (offset : Nat) (data : Bytes) : BitVec 64 :=
  let old := toLe 8 d.toNat
  BitVec.ofNat 64 (leNat (old.take offset ++ data ++ old.drop (offset + data.length)))

/-! ### Causes of resets (R441, R444) -/

/-- A reset caused. Of the causes that wait, the highest type is performed; one of equal or lower type than a cause that
waits, or than the reset or start-up in progress, is ignored and counted. Power loss and PWR_DIS override all (R444). -/
def State.causeReset (s : State) (type cause : Nat) : State :=
  if s.power.rails ≠ .on then s
  else if s.boot.phase < 9 && type ≤ s.boot.rtype then s.bump 0x00000108
  else match s.boot.pending with
    | some (t, _) =>
      if type ≤ t then s.bump 0x00000108 else { s with boot := { s.boot with pending := some (type, cause) } }
    | none => { s with boot := { s.boot with pending := some (type, cause) } }

/-! ### Small shared conditions -/

/-- The drive is powered and past start-up. -/
def State.serving (s : State) : Bool := s.boot.phase == 9 && s.power.rails == .on

/-- The highest T_D at which thermal protection holds (R433). -/
def State.thermalOn (s : State) : Bool := s.power.thermal

/-- The holdup reserve in percent (R303). -/
def Power.reserve (p : Power) : Nat := min 100 (p.energy * 100 / 24000)

/-- Die programs allowed at once: what half of the bank's energy finishes at 40 mJ each, 128 at most (R303, PWR_HOLDUP_CAP). -/
def Power.programLimit (p : Power) : Nat := min 128 (p.energy / 80)

/-- Without rails nothing is read or programmed, and no record begun (R302). -/
def State.dark (s : State) : Bool := s.power.rails == .off || s.power.rails == .thermalHold

/-- The drive's user capacity in bytes (Table 0.1). -/
def State.userCapacity (s : State) : Nat := s.ident.cap * 10 ^ 10

/-! ### Flash layout (8.1) -/

/-- Dies per channel (R293). -/
def State.diesPerChannel (s : State) : Nat := if s.ident.cap = 768 then 4 else 8

/-- Bytes of raw flash: 16 channels of dies of 240 GB (R293). -/
def State.rawBytes (s : State) : Nat := 16 * s.diesPerChannel * (240 * 10 ^ 9)

/-- A codeword is 4,096 data bytes and 512 parity bytes; a page is four of them (R293). -/
def codewordBytes : Nat := 4096 + 512

/-- The shares of raw flash (Table 8.1): codeword parity, stripe parity, the pSLC region, and the spare that is left beside the user
capacity (R294). -/
def State.codewordParity (s : State) : Nat := s.rawBytes * 512 / codewordBytes
def State.stripeParity (s : State) : Nat := s.rawBytes / 16
def State.pslcRegion (s : State) : Nat := s.rawBytes / 64
def State.spareBytes (s : State) : Nat :=
  s.rawBytes - (s.userCapacity + s.codewordParity + s.stripeParity + s.pslcRegion)

/-- The spare at manufacture in 0.01 % of raw, rounded to the nearest (Table 8.1). -/
def State.spareMade (s : State) : Nat := (s.spareBytes * 20000 / s.rawBytes + 1) / 2

/-- The channel on which the parity codeword of a block's stripes lies: it rotates with the block number (R295). -/
def parityChannel (block : Nat) : Nat := (Config.parityStart + block) % 16

/-- The XOR of codewords, bit for bit (R295). -/
def xorAll (xs : List Nat) : Nat := xs.foldl Nat.xor 0

/-- A stripe: 15 data codewords with their XOR put in at the parity position (R295). -/
def stripe (block : Nat) (data : List Nat) : List Nat :=
  data.take (parityChannel block) ++ [xorAll data] ++ data.drop (parityChannel block)

/-- A codeword of a stripe rebuilt from the other 15 (R295; ladder step 6, Table 8.3). -/
def rebuilt (codewords : List Nat) (i : Nat) : Nat := xorAll (codewords.eraseIdx i)

/-! ### SerDes lanes (R240, R322, R325) -/

/-- The limit of a DFE tap (Table 8.7), tap 1 first. -/
def tapLimit (i : Nat) : Int := if i = 0 then 63 else 31

/-- A tap is at its limit. -/
def Lane.atLimit (l : Lane) : Bool := (l.taps.mapIdx (fun i t => decide (tapLimit i ≤ (t.natAbs : Int)))).any (· == true)

/-- Equalisation as training or the first lock sets it: every value is free in its range (assumption log 135). -/
def Lane.trained (k : Nat) : Lane :=
  { tx := Config.openValue k 27
    ctle := Config.openValue k 26 % 16
    taps := (List.range 5).map (fun i => ((Config.openValue k (20 + i) : Nat) : Int) % (2 * tapLimit i + 1) - tapLimit i)
    eye := Config.openValue k 25 % 256
    limitFor := 0
    lowFor := 0 }

/-- The adaptation loop over one tick: a tap moves by at most 1 step per µs (Table 8.7); by how much is free, as is the eye. -/
def Lane.adapt (l : Lane) (k : Nat) : Lane :=
  let move (lim t : Int) (i : Nat) : Int := max (-lim) (min lim (t + ((Config.openValue k i : Nat) : Int) % 17 - 8))
  let y : Lane := { l with
    ctle := Config.openValue k 26 % 16
    taps := l.taps.mapIdx (fun i t => move (tapLimit i) t (20 + i))
    eye := Config.openValue k 25 % 256 }
  { y with limitFor := if y.atLimit then l.limitFor + 1 else 0, lowFor := if y.eye < 10 then l.lowFor + 1 else 0 }

/-- A lane pair carries a link: port A, port B, RING_UP, RING_DN. -/
def State.laneUsed (s : State) (n : Nat) : Bool :=
  match n with
  | 0 => s.portA.up
  | 1 => s.portB.up
  | 2 => s.span.laneUp.lock
  | _ => s.span.laneDn.lock

/-- The four loops over one tick. -/
def State.adaptLanes (s : State) : State :=
  if (List.range 4).any s.laneUsed then
    { s with
      free := s.free + 4
      power := { s.power with lanes := s.power.lanes.mapIdx (fun n l => if s.laneUsed n then l.adapt (s.free + n) else l) } }
  else s

/-- A lane pair's equalisation set afresh (R240). -/
def State.trainLane (s : State) (n : Nat) : State :=
  { s with free := s.free + 1, power := { s.power with lanes := s.power.lanes.set n (Lane.trained s.free) } }

end Sys2Proof.Machine
end

