-- ==== Sys2Proof/Machine/Codes.lean ====
section
/-! DEFINITION. The status values of Table 13.2 and the opcode table (Table 3.1). -/
namespace Sys2Proof.Machine
open Sys2Proof

/-- A status value: class byte, then detail byte (Table 13.2). -/
def Status.code : Status → Nat
  | .done => 0x0000
  | .endOfRange => 0x0001
  | .partialEdge => 0x0002
  | .partialLimit => 0x0003
  | .accepted => 0x0100
  | .segmentTaken => 0x0101
  | .busy => 0x1000
  | .busySelf => 0x1001
  | .backpressure => 0x1100
  | .functionAbsent => 0x2001
  | .fieldReserved => 0x2002
  | .opcode => 0x2003
  | .optionDepth => 0x2004
  | .option => 0x2005
  | .length => 0x2006
  | .range => 0x2007
  | .segment => 0x2008
  | .segmentLate => 0x2009
  | .tagInUse => 0x200A
  | .versionMismatch => 0x200B
  | .holdMissing => 0x200C
  | .keyHeld => 0x200D
  | .cursorMissing => 0x200E
  | .quotaExceeded => 0x200F
  | .collationInvalid => 0x2010
  | .dayMismatch => 0x2011
  | .patternAbsent => 0x2012
  | .patternInvalid => 0x2013
  | .ruleInvalid => 0x2014
  | .timeBeforeClose => 0x2015
  | .notFound => 0x3001
  | .dataLost => 0x3002
  | .uncorrectable => 0x3003
  | .integrityFail => 0x3004
  | .invariantFailed => 0x3005
  | .floorBreached => 0x3006
  | .programFault => 0x3007
  | .authFail => 0x4001
  | .replay => 0x4002
  | .stateForbids => 0x4003
  | .keyExhausted => 0x4004
  | .countExhausted => 0x4005
  | .signature => 0x4006
  | .unwrapFail => 0x4007
  | .outsideSpan => 0x5001
  | .rangeReadonly => 0x5002
  | .fenced => 0x5003
  | .notTimeMaster => 0x5004
  | .levelMismatch => 0x5005
  | .spanReconfig => 0x5006
  | .wedged => 0x6001
  | .resetting => 0x6002
  | .thermal => 0x6003
  | .leverOpen => 0x6004
  | .holdupLow => 0x6005
  | .blockCrc => 0x6006

/-- A status of class 0x00, sent as DONE (Table 13.1). -/
def Status.isDone (st : Status) : Bool := st.code / 256 == 0

/-- A status of class 0x01, sent as ACCEPTED (Table 13.1). -/
def Status.isAccepted (st : Status) : Bool := st.code / 256 == 1

/-- The functions that may issue an opcode (Table 3.1): a tenant, the management function, or both. -/
inductive Issuer where
  | tenant
  | mgmt
  | both
  deriving DecidableEq, Repr

/-- The Key column of Table 3.1. `maybe` is the SCAN row, whose key depends on its mode (R121). -/
inductive KeyUse where
  | none
  | required
  | maybe
  deriving DecidableEq, Repr

/-- A row of Table 3.1: value, issuers, key use, least and greatest value length, greatest segment count, hard bound on
completion in ticks (`none` for long operations and the opcodes that complete at once), and the parameter bits that the
opcode's entry defines. -/
structure OpRow where
  op     : Nat
  who    : Issuer
  key    : KeyUse
  minLen : Nat
  maxLen : Nat
  segs   : Nat
  bound  : Option Nat
  mask   : Nat
  deriving DecidableEq, Repr

/-- Table 3.1. The bound of writes is J for the smallest value; `hardBound` adds its growth. -/
def opTable : List OpRow :=
  let lo32 := 2 ^ 32 - 1
  [⟨0x01, .tenant, .required, 0, 0, 1, some 625, 0⟩,
   ⟨0x02, .tenant, .required, 0, 0, 1, some 625, 1⟩,
   ⟨0x03, .tenant, .required, 0, 0, 1, some 625, lo32⟩,
   ⟨0x04, .tenant, .required, 0, 0, 1, none, lo32⟩,
   ⟨0x08, .tenant, .required, 0, 1048576, 118, some 6, 0⟩,
   ⟨0x09, .tenant, .required, 0, 1048576, 118, some 6, 2 ^ 64 - 1⟩,
   ⟨0x0A, .tenant, .required, 0, 1048576, 118, some 6, lo32⟩,
   ⟨0x0B, .tenant, .required, 1, 8960, 1, some 6, 2 ^ 21 - 1⟩,
   ⟨0x0C, .tenant, .required, 0, 0, 1, some 6, 0⟩,
   ⟨0x10, .tenant, .required, 0, 0, 1, none, 1⟩,
   ⟨0x11, .tenant, .none, 0, 0, 1, some 625, lo32⟩,
   ⟨0x12, .tenant, .none, 0, 0, 1, some 625, lo32⟩,
   ⟨0x13, .tenant, .none, 0, 0, 1, none, lo32⟩] ++
  [⟨0x20, .tenant, .none, 38, 4688, 1, some 6, 0⟩,
   ⟨0x21, .tenant, .required, 0, 4096, 1, some 6, 0⟩,
   ⟨0x22, .both, .none, 0, 0, 1, some 4, lo32⟩,
   ⟨0x30, .tenant, .maybe, 0, 65536, 8, some 62520, 0xF03⟩,
   ⟨0x31, .tenant, .maybe, 0, 65536, 8, some 62520, 0xF03⟩,
   ⟨0x40, .tenant, .required, 16, 16, 1, some 625, 2 ^ 64 - 1⟩,
   ⟨0x48, .mgmt, .none, 0, 0, 1, none, 2 ^ 64 - 1⟩,
   ⟨0x50, .both, .none, 0, 0, 1, none, 0xFF3FFF⟩,
   ⟨0x60, .mgmt, .none, 0, 0, 1, none, 0xFFFFFFFF0000003F⟩,
   ⟨0x61, .mgmt, .none, 0, 0, 1, none, 0x3F⟩,
   ⟨0x62, .both, .none, 0, 0, 1, none, 0x3F⟩] ++
  [⟨0x70, .mgmt, .none, 0, 0, 1, none, 0xFFFFFFFFFF⟩,
   ⟨0x71, .mgmt, .none, 4, 256, 1, none, 0xFFFFFFFFFF⟩,
   ⟨0x72, .mgmt, .none, 0, 0, 1, some 4098, 0x3F⟩,
   ⟨0x73, .mgmt, .none, 0, 0, 1, none, 0xFFFFFFFF00000003⟩,
   ⟨0x74, .mgmt, .none, 32, 32, 1, some 250, 0x3F⟩,
   ⟨0x75, .mgmt, .none, 32, 32, 1, some 250, 0x7F0000003F⟩,
   ⟨0x76, .mgmt, .none, 0, 0, 1, some 2500, 0x3F⟩,
   ⟨0x77, .mgmt, .none, 1, 1048576, 118, some 1250, 0x73F⟩,
   ⟨0x78, .mgmt, .none, 0, 8960, 1, some 125000, 0xF⟩,
   ⟨0x7A, .mgmt, .none, 1, 1024, 1, some 250, 0xF3F⟩] ++
  [⟨0x80, .mgmt, .none, 1, 65536, 8, some 1250, 0⟩,
   ⟨0x81, .mgmt, .none, 1, 65536, 8, some 250, 0xFFFFFFFF0000FFFF⟩,
   ⟨0x82, .mgmt, .none, 0, 0, 1, some 125000, 0⟩,
   ⟨0x83, .mgmt, .none, 0, 0, 1, none, 0⟩,
   ⟨0x84, .mgmt, .none, 0, 0, 1, none, 0⟩,
   ⟨0x90, .mgmt, .none, 1, 8960, 1, some 62502, 0xF⟩,
   ⟨0x91, .mgmt, .none, 0, 0, 1, none, 0⟩,
   ⟨0x92, .both, .none, 0, 0, 1, none, 0⟩]

/-- The row of an opcode value. -/
def opRow (op : Nat) : Option OpRow := opTable.find? (fun r => r.op == op)

/-- A function may issue a row's opcode (R102, R103). -/
def OpRow.mayIssue (r : OpRow) (fn : Nat) : Bool :=
  match r.who with
  | .tenant => fn < 32
  | .mgmt => fn ≥ 62
  | .both => true

/-- The group "segmented" of R457. -/
def segmentedOps : List Nat := [0x08, 0x09, 0x0A, 0x30, 0x31, 0x77, 0x80, 0x81]

/-- The group "writes" of R457. -/
def writeOps : List Nat := [0x08, 0x09, 0x0A, 0x0B, 0x0C, 0x20, 0x21]

/-- The hard completion bound of a request, counted from its first reply (R107, R272): bound J grows by one tick for
each further 65,536 bytes of value. -/
def hardBound (op total : Nat) : Option Nat :=
  match opRow op with
  | some r =>
    match r.bound with
    | some b => some (if writeOps.contains op then b + (ceilDiv total 65536 - 1)
        + (if op = 0x21 then 8 + 64 * 625 else 0) else b)
    | none => none
  | none => none

end Sys2Proof.Machine
end

