-- ==== Sys2Proof/Machine/Keyspace.lean ====
section
/-! DEFINITION. Keys in their collation, the rule lookup, extents, records, holds and cursors of a tenant
(chapter 1, R335 to R338). -/
namespace Sys2Proof.Machine
open Sys2Proof

/-! ### Collation (R27 to R29) -/

/-- The weight of a byte: the byte itself, or its entry of the collation table. -/
def weight (coll : Option Bytes) (b : Byte) : Nat :=
  match coll with
  | none => b.toNat
  | some tab => byteAt tab b.toNat

/-- The weight string of a key. -/
def weights (coll : Option Bytes) (key : Bytes) : List Nat := key.map (weight coll)

/-- Comparison of weight strings: first difference decides, and a prefix orders first (R28). -/
def cmpWeights : List Nat → List Nat → Ordering
  | [], [] => .eq
  | [], _ :: _ => .lt
  | _ :: _, [] => .gt
  | a :: as, b :: bs => if a < b then .lt else if b < a then .gt else cmpWeights as bs

/-- Weight strings in order. -/
def wLt (a b : List Nat) : Bool := cmpWeights a b == .lt

/-- Comparison of keys under a collation. -/
def cmpKeys (coll : Option Bytes) (a b : Bytes) : Ordering := cmpWeights (weights coll a) (weights coll b)

/-- A collation table is a permutation of 0 to 255 (R29). -/
def isPermutation (tab : Bytes) : Bool :=
  tab.length == 256 && (List.range 256).all (fun v => tab.contains (BitVec.ofNat 8 v))

/-- One byte string begins with another. -/
def hasPrefix (pre key : Bytes) : Bool := pre.isPrefixOf key

/-! ### Rule lookup (R37, R336, R337) -/

/-- A rule is visible in a view. -/
def Rule.visibleIn (r : Rule) (view : Bool) : Bool := if view then r.v1 else r.v0

/-- The visible rules of a view. -/
def Awl.visibleIn (x : Awl) (view : Bool) : List Rule := (x.rules.map (·.2)).filter (·.visibleIn view)

/-- The longest of the rules that a key matches (R336). -/
def longestMatch (rules : List Rule) (key : Bytes) : Option Rule :=
  rules.foldl (fun best r =>
    if hasPrefix r.pfx key then
      match best with
      | some b => if b.pfx.length < r.pfx.length then some r else best
      | none => some r
    else best) none

/-- The drive rejoins by itself after a restart (R447): it is JOINING with no SPAN_JOIN behind it. -/
def Span.rejoining (x : Span) : Bool := x.state == .joining && x.join.all (fun j => j.desc.isNone)

/-- The sets of rules count: the drive is in a span, or rejoins one (R337; for the rejoin R447 has the ranges span-
replicated, which R337 taken alone would make local: assumption log 17). -/
def Span.counts (x : Span) : Bool := (x.state != .none && x.state != .joining) || x.rejoining

/-- The drive serves its replicas apart from the span: OUTSIDE, or rejoining (R46, R47, R447). -/
def Span.apart (x : Span) : Bool := x.state == .outside || x.rejoining

/-- The deciding rule of a key in the active view. -/
def State.lookup (s : State) (key : Bytes) : Option Rule := longestMatch (s.awl.visibleIn s.awl.view) key

/-- A key belongs to a tenant (R38). -/
def State.owns (s : State) (t : Nat) (key : Bytes) : Bool :=
  match s.lookup key with
  | some r => r.tenant == some t
  | none => false

/-- The replication set of a rule as a lookup reads it: 0 while the drive is not in a span (R337). -/
def State.setOf (s : State) (r : Rule) : Nat := if s.span.counts then r.set else 0

/-- The replication set of a key. -/
def State.keySet (s : State) (key : Bytes) : Nat :=
  match s.lookup key with
  | some r => s.setOf r
  | none => 0

/-- The compression class of a key, from its rule-table entry (R313). -/
def State.keyClass (s : State) (key : Bytes) : Nat := (s.lookup key).elim 0 (·.cls)

/-- A tenant has a rule that names a nonzero set while the drive is in a span (R120, R130, R268). -/
def State.replicated (s : State) (t : Nat) : Bool :=
  s.span.counts && (s.awl.visibleIn s.awl.view).any (fun r => r.tenant == some t && r.set != 0)

/-- The sets that a tenant's rules name. -/
def State.tenantSets (s : State) (t : Nat) : List Nat :=
  (((s.awl.visibleIn s.awl.view).filter (fun r => r.tenant == some t)).map s.setOf).eraseDups

/-! ### Extents (R40, R338) -/

/-- The least cut above every key with a weight-string prefix: the last weight raised, weights of 255 at the end
dropped; `[256]` is above every key. The argument is the reversed prefix. -/
def afterRev : List Nat → List Nat
  | [] => [256]
  | w :: rest => if w < 255 then ((w + 1) :: rest).reverse else afterRev rest

/-- The cut above every key with a prefix. -/
def cutAfter (pre : List Nat) : List Nat := afterRev pre.reverse

/-- A cut put into a rising list of cuts. -/
def insertCut (c : List Nat) : List (List Nat) → List (List Nat)
  | [] => [c]
  | d :: rest => match cmpWeights c d with
    | .lt => c :: d :: rest
    | .eq => d :: rest
    | .gt => d :: insertCut c rest

/-- The longest rule whose range covers the elementary interval that begins at a cut. -/
def ownerAt (coll : Option Bytes) (rules : List Rule) (cut : List Nat) : Option Nat :=
  ((rules.foldl (fun best r =>
    let w := weights coll r.pfx
    if w.isPrefixOf cut then
      match best with
      | some b => if b.pfx.length < r.pfx.length then some r else best
      | none => some r
    else best) (none : Option Rule)).bind (·.tenant))

/-- Elementary intervals joined into extents: an interval that the tenant owns is joined to the one before it. -/
def joinExtents (owned : List Nat → Bool) : List (List Nat) → List (List Nat × List Nat)
  | [] => []
  | [_] => []
  | a :: b :: rest =>
    let tail := joinExtents owned (b :: rest)
    if owned a then
      match tail with
      | (lo, hi) :: more => if lo == b then (a, hi) :: more else (a, b) :: tail
      | [] => [(a, b)]
    else tail

/-- A tenant's extents under given rules, in collation order, as half-open intervals of cuts. -/
def extentsOf (coll : Option Bytes) (rules : List Rule) (t : Nat) : List (List Nat × List Nat) :=
  let cuts := rules.foldl (fun cs r =>
    insertCut (weights coll r.pfx) (insertCut (cutAfter (weights coll r.pfx)) cs)) [[], [256]]
  joinExtents (fun c => ownerAt coll rules c == some t) cuts

/-- A tenant's extents in the active view. -/
def State.extents (s : State) (t : Nat) : List (List Nat × List Nat) :=
  extentsOf (s.tenant t).coll (s.awl.visibleIn s.awl.view) t

/-- A weight string lies in an extent. -/
def inExtent (w : List Nat) (e : List Nat × List Nat) : Bool := !wLt w e.1 && wLt w e.2

/-! ### Records -/

/-- The record under a key. -/
def Tenant.find (t : Tenant) (key : Bytes) : Option Rec := t.recs.find? (fun r => r.key == key)

/-- A record put in its place in the collation. -/
def insertRec (coll : Option Bytes) (r : Rec) : List Rec → List Rec
  | [] => [r]
  | x :: rest => match cmpKeys coll r.key x.key with
    | .lt => r :: x :: rest
    | .eq => r :: rest
    | .gt => x :: insertRec coll r rest

/-- The tenant with a record put. -/
def Tenant.put (t : Tenant) (r : Rec) : Tenant := { t with recs := insertRec t.coll r t.recs }

/-- The tenant without a key. -/
def Tenant.erase (t : Tenant) (key : Bytes) : Tenant := { t with recs := t.recs.filter (fun r => r.key != key) }

/-- A record's share of the logical bytes (R36). -/
def Rec.size (r : Rec) : Nat := r.key.length + r.value.length

/-- The tenant's logical bytes (R36). -/
def Tenant.logical (t : Tenant) : Nat := t.recs.foldl (fun acc r => acc + r.size) 0

/-- The tenant with a change to the record under a key. -/
def Tenant.modRec (t : Tenant) (key : Bytes) (f : Rec → Rec) : Tenant :=
  { t with recs := t.recs.map (fun r => if r.key == key then f r else r) }

/-- The cursor lease that leases of the tenant take (R57, R264). -/
def Profile.leaseTicks (p : Profile) : Nat := if p.lease = 0 then 125000 else p.lease

/-- The credit floor in force (Table 7.2). -/
def Profile.floorOf (p : Profile) : Nat := if p.floor = 0 then 128 else p.floor

/-! ### Holds and cursors (1.5, 1.6) -/

/-- A hold is valid in a tick (R48). -/
def Hold.validAt (h : Hold) (tick : Nat) : Bool := h.start ≤ tick && tick < h.start + h.dur

/-- The valid hold on a key, if there is one. -/
def Tenant.holdOn (t : Tenant) (key : Bytes) (tick : Nat) : Option Hold :=
  t.holds.find? (fun h => h.key == key && h.validAt tick)

/-- The hold that blocks a GET_HOLD of a key whose last byte arrived in tick `arrival` (R49, R51): one valid in that tick, or one
granted since to a request that arrived later. -/
def Tenant.blockingHold (t : Tenant) (key : Bytes) (arrival now : Nat) : Option Hold :=
  (t.holdOn key arrival).orElse (fun _ => t.holds.find? (fun h => h.key == key && arrival < h.start && h.validAt now))

/-- The valid hold with an id on a key (R49). -/
def Tenant.holdOf (t : Tenant) (id : Nat) (key : Bytes) (tick : Nat) : Option Hold :=
  t.holds.find? (fun h => h.id == id && h.key == key && h.validAt tick)

/-- The tenant without a hold. -/
def Tenant.dropHold (t : Tenant) (id : Nat) : Tenant := { t with holds := t.holds.filter (fun h => h.id != id) }

/-- Ticks that a hold has left at a tick. -/
def Hold.remaining (h : Hold) (tick : Nat) : Nat := h.start + h.dur - tick

/-- The tenant with every hold and cursor freed (R54, R58). -/
def Tenant.freeLeases (t : Tenant) : Tenant := { t with holds := [], cursors := [] }

/-- A cursor is valid in a tick (R57). -/
def Cursor.validAt (c : Cursor) (tick : Nat) : Bool := c.used ≤ tick && tick < c.used + c.lease

/-- The cursor id (R115). -/
def Cursor.id (c : Cursor) : Nat := c.slot + 256 * c.gen

/-- The cursor with an id that a request whose last byte arrived in a tick may name (R57): its lease has not run out by then. A
later step may already have restarted the lease. -/
def Tenant.cursor (t : Tenant) (id tick : Nat) : Option Cursor :=
  t.cursors.find? (fun c => c.id == id && tick < c.used + c.lease)

/-- The open cursor with an id, whatever its lease: that of a step which has been taken up and waits. -/
def Tenant.openedCursor (t : Tenant) (id : Nat) : Option Cursor := t.cursors.find? (fun c => c.id == id)

/-- A cursor whose lease a step restarts (R57): it counts from the latest tick in which a step that names it arrived. -/
def Cursor.restart (c : Cursor) (arrival lease : Nat) : Cursor := { c with used := max c.used arrival, lease := lease }

/-- The tenant with one cursor changed. -/
def Tenant.modCursor (t : Tenant) (slot : Nat) (f : Cursor → Cursor) : Tenant :=
  { t with cursors := t.cursors.map (fun c => if c.slot = slot then f c else c) }

/-! ### Stepping through a key space (R55, R56, R60) -/

/-- How a step ends: at a record, at the end of the range, or at an extent edge with the resume key if there is one. -/
inductive Stop where
  | at (key : Bytes)
  | endOfRange
  | edge (resume : Option Bytes)
  deriving DecidableEq, Repr

/-- A step in a direction from the extent `here`. `cand` picks the keys ahead within the range and `meets` the extents
that meet the range (R56, R60). -/
def State.stepKeys (s : State) (t : Nat) (fwd : Bool) (here : List Nat → Bool) (cand : Bytes → Bool)
    (meets : List Nat × List Nat → Bool) : Stop :=
  let ten := s.tenant t
  let recs := if fwd then ten.recs else ten.recs.reverse
  let exts := if fwd then s.extents t else (s.extents t).reverse
  let found := (recs.find? (fun r => cand r.key)).map (·.key)
  let rest := exts.dropWhile (fun e => !here e.1)
  let inside := match found, rest with
    | some k, e :: _ => inExtent (weights ten.coll k) e
    | _, _ => false
  match found with
  | some k => if inside then .at k else
    if (rest.drop 1).any meets then .edge (some k) else .endOfRange
  | none => if (rest.drop 1).any meets then .edge none else .endOfRange

/-- The extent that holds a key, named by its lower cut. -/
def State.extentOf (s : State) (t : Nat) (key : Bytes) : Option (List Nat × List Nat) :=
  (s.extents t).find? (fun e => inExtent (weights (s.tenant t).coll key) e)

/-- An extent meets the range of keys with a prefix. -/
def meetsPrefix (coll : Option Bytes) (pre : Bytes) (e : List Nat × List Nat) : Bool :=
  wLt e.1 (cutAfter (weights coll pre)) && wLt (weights coll pre) e.2

/-- One browse step of a cursor (R55, R56): the position is the start key before a record has been returned, but for a
GENERIC cursor stepping back, which stands in the last extent that meets the prefix range. -/
def State.browseStep (s : State) (t : Nat) (c : Cursor) (fwd : Bool) : Stop :=
  let coll := (s.tenant t).coll
  let meets (e : List Nat × List Nat) : Bool := !c.generic || meetsPrefix coll c.start e
  let inRange (k : Bytes) : Bool := !c.generic || hasPrefix c.start k
  let pos := c.pos.getD c.start
  let fromEnd := c.pos.isNone && c.generic && !fwd
  let home := if fromEnd then ((s.extents t).filter meets).getLast? else s.extentOf t pos
  let cand (k : Bytes) : Bool := inRange k &&
    (match c.pos with
      | some p => cmpKeys coll k p == (if fwd then .gt else .lt)
      | none => c.generic || cmpKeys coll k c.start != (if fwd then .lt else .gt))
  s.stepKeys t fwd (fun lo => some lo == home.map (·.1)) cand meets

/-- A GE lookup from a partial key (R59, R60). -/
def State.geStep (s : State) (t : Nat) (key : Bytes) : Stop :=
  let coll := (s.tenant t).coll
  s.stepKeys t true (fun lo => some lo == (s.extentOf t key).map (·.1)) (fun k => cmpKeys coll k key != .lt)
    (fun _ => true)

/-- The least key with a prefix (R59). -/
def State.prefixLeast (s : State) (t : Nat) (pre : Bytes) : Option Bytes :=
  ((s.tenant t).recs.find? (fun r => hasPrefix pre r.key)).map (·.key)

end Sys2Proof.Machine
end

