-- ==== Sys2Proof/Machine/Wire.lean ====
section
/-! DEFINITION. Frames that the drive sends: the bytes of a reply, event or LLDPDU (R67, R72, R77, R83, R459), reply
segmentation (R97), the transmit queues (R256), and the shared ways in which a request is answered (R98, R100). -/
namespace Sys2Proof.Machine
open Sys2Proof

/-! ### The bytes of a frame -/

/-- Bytes of an outer frame around a TKX message: Ethernet header, tags, network and UDP headers, FCS (R67). -/
def Source.overhead (x : Source) : Nat :=
  18 + x.vlans.length + (match x.net with
    | .raw => 0
    | .v4 _ _ => 28
    | .v6 _ _ _ => 48)

/-- A sequence of TLVs padded with PAD to whole 4-byte units (R77). -/
def padOpts (b : Bytes) : Bytes := padTo (4 * ceilDiv b.length 4) b

/-- One option TLV (Table 2.4). -/
def tlv (type : Nat) (value : Bytes) : Bytes := [BitVec.ofNat 8 type, BitVec.ofNat 8 value.length] ++ value

/-- The REPLY_FLAGS TLV, present only when a bit is set (Table 2.5). -/
def replyFlags (stale endOfSpace : Bool) : Bytes :=
  let n := flagAt stale 0 + flagAt endOfSpace 1
  if n = 0 then [] else tlv 0x42 (toBe 2 n)

/-- The 32-byte header of a frame (Table 2.3, Table 13.3). -/
def OutFrame.header (f : OutFrame) : Bytes :=
  let last := f.segIndex + 1 == f.segCount
  let kind := if f.kind == .event then 2 else 1
  let stat := if f.kind == .event then f.event else f.status.code
  [BitVec.ofNat 8 (0x20 + flagAt last 1 + flagAt f.mac.isSome 0), BitVec.ofNat 8 (kind * 64 + f.fn),
    BitVec.ofNat 8 f.op, BitVec.ofNat 8 (f.opts.length / 4)] ++ toBe 2 f.tag ++ toBe 2 stat ++ toBe 4 f.seq
    ++ toBe 2 f.key.length ++ [BitVec.ofNat 8 f.segIndex, BitVec.ofNat 8 f.segCount] ++ toBe 4 f.total
    ++ toBe 4 f.payload.length ++ toBe 8 f.param.toNat

/-- The TKX message of a frame, with its CMAC tag where it carries one (R83). -/
def OutFrame.message (f : OutFrame) : Bytes :=
  let body := f.header ++ f.opts ++ f.key ++ f.payload
  match f.mac with
  | some k => body ++ cmac k (toBe 8 f.ext ++ body)
  | none => body

/-- Bytes of a frame on the wire, FCS included; the Ethernet minimum is 64. -/
def OutFrame.wireLen (f : OutFrame) : Nat :=
  if f.kind == .lldp then f.raw.length
  else max 64 (f.dst.overhead + 32 + f.opts.length + f.key.length + f.payload.length + (if f.mac.isSome then 16 else 0))

/-- A UDP datagram with its checksum over a pseudo-header; a sum of zero is sent as all ones. -/
def udpBytes (pseudo : Bytes) (src dst : Nat) (msg : Bytes) : Bytes :=
  let len := 8 + msg.length
  let head := toBe 2 src ++ toBe 2 dst ++ toBe 2 len
  let c := inetSum (pseudo ++ head ++ [0#8, 0#8] ++ msg)
  head ++ toBe 2 (if c = 0 then 0xFFFF else c) ++ msg

/-- The layers between the Ethernet tags and the FCS of a frame sent by a port (R67). -/
def netBytes (own : Addrs) (x : Source) (msg : Bytes) : Bytes :=
  match x.net with
  | .raw => toBe 2 0x88B5 ++ msg
  | .v4 src tos =>
    let len := 28 + msg.length
    let pre := [0x45#8, tos] ++ toBe 2 len ++ [0#8, 0#8, 0x40#8, 0#8, 64#8, 17#8]
    let addrs := toBe 4 own.ipv4.toNat ++ toBe 4 src.toNat
    let pseudo := addrs ++ [0#8, 17#8] ++ toBe 2 (8 + msg.length)
    toBe 2 0x0800 ++ pre ++ toBe 2 (inetSum (pre ++ [0#8, 0#8] ++ addrs)) ++ addrs
      ++ udpBytes pseudo own.tkxPort x.udp msg
  | .v6 src tc flow =>
    let addrs := toBe 16 own.ipv6.toNat ++ toBe 16 src.toNat
    let pseudo := addrs ++ toBe 4 (8 + msg.length) ++ [0#8, 0#8, 0#8, 17#8]
    toBe 2 0x86DD ++ toBe 4 (6 * 2 ^ 28 + tc.toNat * 2 ^ 20 + flow.toNat) ++ toBe 2 (8 + msg.length)
      ++ [17#8, 64#8] ++ addrs ++ udpBytes pseudo own.tkxPort x.udp msg

/-- The whole frame as it leaves a port with a MAC address, padded to the Ethernet minimum and closed by its FCS. -/
def OutFrame.bytes (f : OutFrame) (mac : Bytes) (own : Addrs) : Bytes :=
  if f.kind == .lldp then f.raw
  else
    let body := f.dst.mac ++ mac ++ f.dst.vlans ++ netBytes own f.dst f.message
    let padded := if body.length < 60 then padTo 60 body else body
    padded ++ toLe 4 (fcsOf padded)

/-! ### Transmit queues (R246, R256) -/

/-- The transmitter leaves low-power idle (R246); a wake time that was waiting for an exit takes effect (R245). -/
def PortState.wake (p : PortState) (tick : Nat) : PortState :=
  if p.txLpi then
    { p with txLpi := false, idleSince := tick, twInUse := p.twNext.getD p.twInUse, twNext := none }
  else p

/-- Frames put in the queue that R256 gives them: first replies other than DONE in the short queue, a DONE first
reply at the head of the bulk queue, everything else behind. -/
def PortState.enqueue (p : PortState) (tick : Nat) (fs : List OutFrame) : PortState :=
  let p := p.wake tick
  fs.foldl (fun p f =>
    if f.isFirst && !f.status.isDone then { p with short := p.short ++ [f] }
    else if f.isFirst then { p with bulkFirst := p.bulkFirst ++ [f] }
    else { p with bulk := p.bulk ++ [f] }) p

/-- First-reply bytes queued for a port and not begun (R252, TXQ_FIRST). -/
def PortState.firstBytes (p : PortState) : Nat :=
  (p.short ++ p.bulkFirst).foldl (fun acc f => acc + f.wireLen) 0

/-! ### Forming replies -/

/-- A value cut into reply segments: the first of `c0` bytes, the rest of `c1`. -/
def cutSegs (c0 c1 : Nat) (value : Bytes) : List Bytes :=
  if value.length ≤ c0 then [value]
  else value.take c0 :: chunk c1 (ceilDiv (value.length - c0) c1) (value.drop c0)

/-- Value bytes that a reply segment can carry at a transmit MTU (R97). -/
def segRoom (mtu : Nat) (src : Source) (tagged : Bool) (optsLen keyLen : Nat) : Nat :=
  min 8960 (mtu - (src.overhead + 32 + optsLen + keyLen + (if tagged then 16 else 0)))

/-- The segments of a reply's value at the port's transmit MTU (R97, R249). -/
def replySegs (mtu : Nat) (d : Desc) (opts key value : Bytes) : List Bytes :=
  cutSegs (segRoom mtu d.src d.mac.isSome opts.length key.length) (max 1 (segRoom mtu d.src d.mac.isSome 0 0)) value

/-- A reply of at most 118 segments: a value that would need more is refused with LENGTH (R97). -/
def replyFits (mtu : Nat) (d : Desc) (opts key value : Bytes) : Bool :=
  (replySegs mtu d opts key value).length ≤ 118

/-- One frame of a reply to a descriptor's request. -/
def Desc.frame (d : Desc) (st : Status) (param : Nat) (opts key payload : Bytes) (index count total : Nat)
    (first : Bool) (final : Bool) : OutFrame :=
  { kind := .reply, dst := d.src, fn := d.fn, op := d.op, tag := d.tag, seq := d.seq, ext := d.ext, mac := d.mac,
    status := st, event := 0, param := BitVec.ofNat 64 param, opts := opts, key := key, payload := payload,
    segIndex := index, segCount := count, total := total, isFirst := first,
    owner := some d.id, final := if final then some d.id else none, tagOf := none, resets := none, raw := [] }

/-- The frames of a final reply: key and options in segment 0 only, every segment with status and parameter (R97). -/
def Desc.frames (d : Desc) (mtu : Nat) (st : Status) (param : Nat) (opts key value : Bytes) (first : Bool) :
    List OutFrame :=
  let opts := padOpts opts
  let segs := replySegs mtu d opts key value
  segs.mapIdx (fun i seg =>
    d.frame st param (if i = 0 then opts else []) (if i = 0 then key else []) seg i segs.length value.length
      (first && i == 0) (i + 1 == segs.length))

/-- A reply formed for a request that holds a descriptor: its first reply if it has had none, else its completion
(R98). The request is then closing, and its staging is free. -/
def State.answerWith (s : State) (id : Nat) (st : Status) (param : Nat) (opts key value : Bytes)
    (resets : Option (Nat × Nat)) : State :=
  match s.desc id with
  | none => s
  | some d =>
    let fs := (d.frames (s.port d.port).txMtu st param opts key value d.first.isNone).map
      (fun f => if f.final.isSome then { f with resets := resets } else f)
    (s.modPort d.port (fun p => p.enqueue s.tick fs)).modDesc id
      (fun d => { d with phase := .closing, first := some (d.first.getD s.tick), staging := 0 })

/-- A final reply (R106). A value that would need more than 118 segments is refused with LENGTH instead (R97). -/
def State.answer (s : State) (id : Nat) (st : Status) (param : Nat) (opts key value : Bytes) : State :=
  match s.desc id with
  | none => s
  | some d =>
    if replyFits (s.port d.port).txMtu d (padOpts opts) key value then s.answerWith id st param opts key value none
    else s.answerWith id .length 0 [] [] [] none

/-- A refusal: no value, and a parameter only where a rule gives one (R106). -/
def State.refuse (s : State) (id : Nat) (st : Status) (param : Nat) : State := s.answer id st param [] [] []

/-- DONE with a parameter alone. -/
def State.finish (s : State) (id : Nat) (param : Nat) : State := s.answer id .done param [] [] []

/-- The first reply ACCEPTED (R98): the request goes on in a phase, with the deadline of its hard bound (R272). A
request that has had its first reply gets no second one. -/
def State.accept (s : State) (id : Nat) (ph : Phase) : State :=
  match s.desc id with
  | none => s
  | some d =>
    let s1 := if d.first.isSome then s
      else s.modPort d.port (fun p => p.enqueue s.tick [d.frame .accepted 0 [] [] [] 0 1 0 true false])
    s1.modDesc id (fun d => { d with
      phase := ph
      first := some (d.first.getD s.tick)
      deadline := match d.first with
        | some _ => d.deadline
        | none => (hardBound d.op d.total).map (· + s.tick) })

/-- A BACKPRESSURE at a bound of the opcode: the descriptor and the staging return at once, and the tag stays in
flight until the reply has left (R271, R272). -/
def State.pushBack (s : State) (id retry : Nat) : State :=
  match s.desc id with
  | none => s
  | some d =>
    let f := { d.frame .backpressure (max 1 retry) [] [] [] 0 1 0 true false with
      tagOf := some (d.fn, d.space, d.tag) }
    let s := (s.modPort d.port (fun p => p.enqueue s.tick [f])).dropDesc id
    if d.fn ≥ 62 then s.bump 0x00038108 else s

/-- BUSY from an opcode that acts on a busy tenant (R129): the tag is free once the reply has left. -/
def State.answerBusy (s : State) (id param : Nat) : State := s.answer id .busy param [] [] []

/-- The parameter of a BUSY reply (R91): estimated ticks and percentage of the tenant's long operation. The estimate is
a free value; the percentage never falls (3.8.1). -/
def State.busyParam (s : State) (t : Nat) : Nat × State :=
  let percent := max ((s.tenant t).longOp.elim 0 (·.percent)) (min 100 (Config.busyPercent s.free))
  let est := min (Config.busyTicks s.free) 0xFFFFFFFF
  (est * 2 ^ 32 + percent,
    { s.modTenant t (fun x => { x with longOp := x.longOp.map (fun l => { l with percent := percent }) }) with
      free := s.free + 1 })

/-- A tag is in flight: a request's until its final reply has left, and that of a refused request until its reply has
left (R89, R270). -/
def State.tagInFlight (s : State) (fn space tag : Nat) : Bool :=
  s.descs.any (fun d => d.fn == fn && d.space == space && d.tag == tag && !d.tagFree) ||
  (s.portA.short ++ s.portB.short).any (fun f => f.tagOf == some (fn, space, tag))

/-- Functions that share one bound: the management function and maker service together (R271). -/
def sameShare (a b : Nat) : Bool := a == b || (a ≥ 62 && b ≥ 62)

/-- Tags in flight of a function (R89, 2.6.1): a tag that two frames carry is one. -/
def State.tagsOf (s : State) (fn : Nat) : Nat :=
  let held := (s.descs.filter (fun d => sameShare d.fn fn && !d.tagFree)).map (fun d => (d.fn, d.space, d.tag))
  let queued := ((s.portA.short ++ s.portB.short).filterMap (·.tagOf)).filter (fun x => sameShare x.1 fn)
  (held ++ queued).eraseDups.length

/-- Descriptors in use by a function. -/
def State.descsOf (s : State) (fn : Nat) : Nat := (s.descs.filter (fun d => sameShare d.fn fn)).length

/-- Staging in KiB held by a function. -/
def State.stagingOf (s : State) (fn : Nat) : Nat :=
  (s.descs.filter (fun d => sameShare d.fn fn)).foldl (fun acc d => acc + d.staging) 0

/-- Staging in KiB held by all. -/
def State.stagingUsed (s : State) : Nat := s.descs.foldl (fun acc d => acc + d.staging) 0

/-- Tenants that exist. -/
def State.created (s : State) : List Nat := (List.range 32).filter (fun t => (s.tenant t).state != .absent)

/-- The sum of the credit floors of created tenants (TNT_FLOOR_SUM). -/
def State.floorSum (s : State) : Nat := s.created.foldl (fun acc t => acc + (s.tenant t).profile.floorOf) 0

/-- Shared descriptors in use: those that tenants hold above their floors (R269). -/
def State.sharedUsed (s : State) : Nat :=
  (List.range 32).foldl (fun acc t => acc + (s.descsOf t - (s.tenant t).profile.floorOf)) 0

/-- The effective shared limit (R269, TNT_POOL): the shared pool less the thermal loop's reduction. -/
def State.sharedLimit (s : State) : Nat :=
  let pool := 16128 - s.floorSum
  pool - s.power.reduction

end Sys2Proof.Machine
end

