-- ==== Sys2Proof/Machine/Parse.lean ====
section
/-! DEFINITION. The frame parser: the checks of Table 2.2 in their order (R64 to R71, R468, R469), the TKX header
(R72) and the option area (R77 to R80, R108, R470). -/
namespace Sys2Proof.Machine
open Sys2Proof

/-! ### Counters of Table 6.5 that the parser uses, as offsets -/

def cDropNonTkx : Nat := 0x138
def cDropDepth : Nat := 0x140
def cDropUnsup : Nat := 0x148
def cDropCsum : Nat := 0x150
def cDropFrag : Nat := 0x158
def cDropVer : Nat := 0x160
def cDropKind : Nat := 0x168
def cDropLen : Nat := 0x170

/-- A parsed request: where it came from, the fields of Table 2.3, and its parts. `body` is the message without its
CMAC tag, `auth` the tag when one is present. -/
structure Req where
  src      : Source
  reserved : Nat
  last     : Bool
  fn       : Nat
  op       : Nat
  tag      : Nat
  status   : Nat
  seq      : Nat
  keyLen   : Nat
  index    : Nat
  count    : Nat
  total    : Nat
  payLen   : Nat
  param    : BitVec 64
  opts     : Bytes
  key      : Bytes
  value    : Bytes
  body     : Bytes
  auth     : Option Bytes
  deriving DecidableEq, Repr, Inhabited

/-- `n` bytes at an offset; where the frame does not hold them, the check that needs them cannot be made (R469). -/
def need (b : Bytes) (off n : Nat) : Except Nat Bytes :=
  if off + n ≤ b.length then .ok (slice b off n) else .error cDropLen

/-- A check of Table 2.2 with the counter of its failure. -/
def check (ok : Bool) (counter : Nat) : Except Nat Unit := if ok then .ok () else .error counter

/-! ### Option TLVs (2.4) -/

/-- The TLVs of an area with their depth, in order, or `none` where a length runs past its container (2.4.1). `fuel`
bounds the bytes left to walk. -/
def walkTlvs : (fuel : Nat) → (depth : Nat) → Bytes → Option (List (Nat × Nat × Bytes))
  | 0, _, b => if b.isEmpty then some [] else none
  | fuel + 1, depth, b =>
    match b with
    | [] => some []
    | t :: rest =>
      if t = 0#8 then walkTlvs fuel depth rest
      else match rest with
        | [] => none
        | l :: rest =>
          let v := rest.take l.toNat
          if v.length < l.toNat then none
          else
            let inner := if t.toNat ≥ 128 then walkTlvs fuel (depth + 1) v else some []
            match inner, walkTlvs fuel depth (rest.drop l.toNat) with
            | some xs, some ys => some ((depth, t.toNat, v) :: xs ++ ys)
            | _, _ => none

/-- The TLVs of an option area. -/
def tlvsOf (opts : Bytes) : Option (List (Nat × Nat × Bytes)) := walkTlvs (opts.length + 1) 1 opts

/-- The length that a known code's table gives (Tables 2.5 and 3.2); `none` for a code that is not known. -/
def knownLen : Nat → Option Nat
  | 0x01 => some 1
  | 0x08 => some 8
  | 0x09 => some 4
  | 0x0A => some 8
  | 0x0B => some 4
  | 0x0C => some 4
  | _ => none

/-- The known option TLVs of depth 1, by code. -/
def knownOpts (opts : Bytes) : List (Nat × Bytes) :=
  ((tlvsOf opts).getD []).filterMap (fun x =>
    if x.1 = 1 && (knownLen (x.2.1 % 64)).isSome then some (x.2.1 % 64, x.2.2) else none)

/-- The sequence space of a request (R470). -/
def spaceOf (opts : Bytes) : Nat :=
  match ((tlvsOf opts).getD []).filter (fun x => x.1 == 1 && x.2.1 % 64 == 1) with
  | [(_, t, [v])] => if t < 128 && v.toNat < 8 then v.toNat else 0
  | _ => 0

/-- Order 8 of Table 2.6 for the content of the option area (R79, R80, R108): the first TLV at fault decides. What an
unknown container holds is skipped with it. -/
def optFault (op : Nat) (opts : Bytes) : Option Status :=
  let top := ((tlvsOf opts).getD []).filter (fun x => x.1 == 1)
  let rec go (seen : List Nat) : List (Nat × Nat × Bytes) → Option Status
    | [] => none
    | (_, t, v) :: rest =>
      let code := t % 64
      match knownLen code with
      | none =>
        if code = 0 || code = 2 || bit t 6 then some .option else go seen rest
      | some n =>
        if t ≥ 128 || v.length ≠ n then some .option
        else
          let times := (seen.filter (· == code)).length
          let most := if code = 0x09 && (op = 0x20 || op = 0x21) then 16 else 1
          if times ≥ most then some .option
          else if code = 0x01 && beNat v > 7 then some .range
          else if code = 0x0A && beNat v = 0 then some .range
          else if code = 0x0B && (beNat v = 0 || beNat v > 65536) then some .range
          else go (code :: seen) rest
  go [] top

/-- A TLV at depth 4 or more (R78). -/
def tooDeep (opts : Bytes) : Bool := ((tlvsOf opts).getD []).any (fun x => x.1 ≥ 4)

/-- The option codes that an opcode allows in its request (Table 3.2): SEQ_SPACE in all. -/
def allowedOpts (op : Nat) (param : BitVec 64) : List Nat :=
  0x01 ::
  (if [0x01, 0x02, 0x03, 0x11, 0x12, 0x30, 0x31, 0x40].contains op then [0x08] else []) ++
  (if [0x08, 0x09, 0x0B, 0x0C, 0x20, 0x21].contains op then [0x09] else []) ++
  (if op = 0x0B || op = 0x0C then [0x0A] else []) ++
  (if (op = 0x30 || op = 0x31) && param.toNat % 4 < 2 then [0x0B] else [])

/-! ### The layers (2.1, 2.2) -/

/-- The VLAN tags after the source address: TPIDs 0x8100 and 0x88A8 mark a tag (R469). At most three are read. -/
def vlanTpids (b : Bytes) : List Nat :=
  let isTag (n : Nat) : Bool := n == 0x8100 || n == 0x88A8
  if isTag (u16 b 12) then
    u16 b 12 :: (if isTag (u16 b 16) then
      u16 b 16 :: (if isTag (u16 b 20) then [u16 b 20] else []) else [])
  else []

/-- The options of an IPv6 extension header (R65): `none` where an option runs past its header (R469), else whether
every option may be skipped. -/
def v6Opts : Nat → Bytes → Option Bool
  | 0, _ => some true
  | fuel + 1, b =>
    match b with
    | [] => some true
    | t :: rest =>
      if t = 0#8 then v6Opts fuel rest
      else if t.toNat ≥ 64 then some false
      else match rest with
        | [] => none
        | l :: rest => if rest.length < l.toNat then none else v6Opts fuel (rest.drop l.toNat)

/-- The walk of the IPv6 header chain (R468): the value that ends it, the offset after the walked headers, and their
bodies. `walked` lists the values walked into. -/
def walkV6 (b : Bytes) : Nat → Nat → Nat → List Nat → List Bytes → Except Nat (Nat × Nat × List Nat × List Bytes)
  | 0, v, off, walked, bodies => .ok (v, off, walked, bodies)
  | fuel + 1, v, off, walked, bodies =>
    if walked.length < 2 && ((v = 0 && walked.isEmpty) || (v = 60 && !walked.contains 60)) then do
      let head ← need b off 2
      let len := 8 * (byteAt head 1 + 1)
      let ext ← need b off len
      walkV6 b fuel (byteAt ext 0) (off + len) (walked ++ [v]) (bodies ++ [ext.drop 2])
    else .ok (v, off, walked, bodies)

/-- The IPv6 values that name an extension header (R468). -/
def extHeaders : List Nat := [0, 43, 50, 51, 60, 135, 139, 140, 253, 254]

/-- The tunnels of step 10. -/
def tunnels : List Nat := [4, 41, 47]

/-- The UDP checks of steps 13 and 14. A UDP length that is too small for its header or runs past the frame is met with
the header, before the port is judged (R469; log 46). Answers the UDP length and source port. -/
def checkUdp (own : Addrs) (b : Bytes) (off : Nat) (v6 : Bool) (pseudo : Nat → Bytes) :
    Except Nat (Nat × Nat) := do
  let head ← need b off 8
  let len := u16 head 4
  check (8 ≤ len) cDropLen
  let dgram ← need b off len
  check (u16 head 2 == own.tkxPort) cDropNonTkx
  if u16 head 6 = 0 then check (!v6) cDropCsum
  else check (fold16 (onesSum (pseudo len ++ dgram)) == 0xFFFF) cDropCsum
  pure (len, u16 head 0)

/-- The TKX header and the parts behind it, once steps 15 to 18 have passed (R68, R70). `off` is where the message
begins and `lenOk` whether a message length agrees with the lengths around it. DESIGN CHOICE (log 113): an option-area
length byte of 16 or more, outside the range of Table 2.3, is a length at fault at step 18. -/
def checkTkx (b : Bytes) (off : Nat) (src : Source) (lenOk : Nat → Bool) : Except Nat Req := do
  check (off + 32 ≤ 256) cDropDepth
  let h ← need b off 32
  let optLen := 4 * byteAt h 3
  check (off + 32 + optLen ≤ 256) cDropDepth
  check (byteAt h 0 / 16 == 2) cDropVer
  check (byteAt h 1 / 64 == 0) cDropKind
  let tagged := byteAt h 0 % 2 == 1
  let keyLen := u16 h 12
  let payLen := u32 h 20
  let m := 32 + optLen + keyLen + payLen + (if tagged then 16 else 0)
  check (optLen ≤ 60 && lenOk m && off + m ≤ b.length) cDropLen
  let opts := slice b (off + 32) optLen
  check (tlvsOf opts).isSome cDropLen
  let bodyLen := 32 + optLen + keyLen + payLen
  pure { src := src, reserved := bits (byteAt h 0) 3 2, last := bit (byteAt h 0) 1, fn := byteAt h 1 % 64,
         op := byteAt h 2, tag := u16 h 4, status := u16 h 6, seq := u32 h 8, keyLen := keyLen,
         index := byteAt h 14, count := byteAt h 15, total := u32 h 16, payLen := payLen,
         param := BitVec.ofNat 64 (u64 h 24), opts := opts, key := slice b (off + 32 + optLen) keyLen,
         value := slice b (off + 32 + optLen + keyLen) payLen, body := slice b off bodyLen,
         auth := if tagged then some (slice b (off + bodyLen) 16) else none }

/-- The frame length agrees with the end of the datagram or message: exactly, or by padding to the Ethernet minimum of
64 bytes (R70). `b` is the frame without its FCS. -/
def endsRight (b : Bytes) (endAt : Nat) : Bool :=
  b.length == endAt || (b.length == 60 && endAt < 60)

/-- Steps 6 to 18 over IPv4. The total length is judged with its header, before step 7 (R469; log 46). -/
def parseV4 (own : Addrs) (b : Bytes) (ip : Nat) (mac vlans : Bytes) : Except Nat Req := do
  let b0 ← need b ip 1
  let hl := 4 * (byteAt b0 0 % 16)
  check (byteAt b0 0 / 16 == 4 && 20 ≤ hl) cDropUnsup
  let h ← need b ip hl
  let total := u16 h 2
  check (hl ≤ total && ip + total ≤ b.length) cDropLen
  check (fold16 (onesSum h) == 0xFFFF) cDropCsum
  check (u16 h 6 % 2 ^ 14 == 0) cDropFrag
  let proto := byteAt h 9
  check (!tunnels.contains proto) cDropDepth
  check (proto == 17) cDropUnsup
  check (own.ipv4 != 0#32 && u32 h 16 == own.ipv4.toNat) cDropNonTkx
  let udp ← checkUdp own b (ip + hl) false
    (fun len => slice h 12 8 ++ [0#8, 17#8] ++ toBe 2 len)
  checkTkx b (ip + hl + 8)
    { mac := mac, vlans := vlans, net := .v4 (BitVec.ofNat 32 (u32 h 12)) (BitVec.ofNat 8 (byteAt h 1)),
      udp := udp.2 }
    (fun m => udp.1 == 8 + m && total == hl + 8 + m && endsRight b (ip + total))

/-- Steps 6 to 18 over IPv6. The payload length is judged with its header, at step 6 (R469; log 46). -/
def parseV6 (own : Addrs) (b : Bytes) (ip : Nat) (mac vlans : Bytes) : Except Nat Req := do
  let b0 ← need b ip 1
  check (byteAt b0 0 / 16 == 6) cDropUnsup
  let h ← need b ip 40
  let plen := u16 h 4
  check (ip + 40 + plen ≤ b.length) cDropLen
  let (v, off, walked, bodies) ← walkV6 b 2 (byteAt h 6) (ip + 40) [] []
  check (v != 44) cDropFrag
  check (!tunnels.contains v && !(walked.length == 2 && extHeaders.contains v)) cDropDepth
  check (v == 17) cDropUnsup
  let opts := bodies.map (fun x => v6Opts x.length x)
  check (!(opts.takeWhile (fun o => o != some false)).contains none) cDropLen
  check (!opts.contains (some false)) cDropUnsup
  check (own.ipv6 != 0#128 && beNat (slice h 24 16) == own.ipv6.toNat) cDropNonTkx
  let udp ← checkUdp own b off true
    (fun len => slice h 8 32 ++ toBe 4 len ++ [0#8, 0#8, 0#8, 17#8])
  checkTkx b (off + 8)
    { mac := mac, vlans := vlans,
      net := .v6 (BitVec.ofNat 128 (beNat (slice h 8 16))) (BitVec.ofNat 8 (bits (u32 h 0) 27 20))
        (BitVec.ofNat 20 (u32 h 0 % 2 ^ 20)),
      udp := udp.2 }
    (fun m => udp.1 == 8 + m && plen == (off - (ip + 40)) + 8 + m && endsRight b (ip + 40 + plen))

/-- Steps 2 to 18 of Table 2.2 on a frame without its FCS that a port received: a parsed request, or the counter of the
first check that fails. -/
def parseFrame (mac : Bytes) (own : Addrs) (b : Bytes) : Except Nat Req := do
  check (b.take 6 == mac) cDropNonTkx
  let src := slice b 6 6
  let tpids := vlanTpids b
  check (tpids.length < 3) cDropDepth
  check (tpids.isEmpty || tpids == [0x8100] || tpids == [0x88A8, 0x8100]) cDropUnsup
  let at_ := 12 + 4 * tpids.length
  let vlans := slice b 12 (4 * tpids.length)
  let et ← need b at_ 2
  let ip := at_ + 2
  match beNat et with
  | 0x0800 => parseV4 own b ip src vlans
  | 0x86DD => parseV6 own b ip src vlans
  | 0x88B5 => do
    check own.rawEn cDropNonTkx
    checkTkx b ip { mac := src, vlans := vlans, net := .raw, udp := 0 } (fun m => endsRight b (ip + m))
  | _ => .error cDropNonTkx

end Sys2Proof.Machine
end

