-- ==== Sys2Proof/Machine/Checks.lean ====
section
/-! DEFINITION. The checks that every opcode makes before its own (R104), the bounds of order 12 (R271, R272), and how a
command takes up the request of a descriptor. -/
namespace Sys2Proof.Machine
open Sys2Proof

/-- The register blocks (Table 13.5): first and last address. -/
def blocks : List (Nat × Nat) :=
  [(0x00000000, 0x0000FFFF), (0x00010000, 0x00017FFF), (0x00018000, 0x0001FFFF), (0x00020000, 0x0002FFFF),
   (0x00030000, 0x0003FFFF), (0x00040000, 0x0004FFFF), (0x00050000, 0x0005FFFF), (0x00060000, 0x0006FFFF),
   (0x00070000, 0x0007FFFF), (0x00080000, 0x0009FFFF), (0x000A0000, 0x000AFFFF), (0x000B0000, 0x000BFFFF),
   (0x000C0000, 0x000CFFFF)]

/-- A register access that R133 admits: aligned, 1 to 64 words, inside one block and, in TKP_, inside one page. -/
def accessOk (addr count : Nat) : Bool :=
  let last := addr + 4 * count - 1
  addr % 4 == 0 && 1 ≤ count && count ≤ 64 &&
    blocks.any (fun b => b.1 ≤ addr && addr ≤ b.2 && last ≤ b.2 &&
      (b.1 != 0x00080000 || addr / 4096 == last / 4096))

/-- Bits of a request's parameter. -/
def Desc.bitsOf (d : Desc) (hi lo : Nat) : Nat := bits d.param.toNat hi lo

/-- The parameter bits that an opcode defines for a function (R104 item 1): a tenant names no target, and QUERY's period
belongs to METER alone. -/
def paramMask (r : OpRow) (fn : Nat) (param : Nat) : Nat :=
  if r.op = 0x50 then
    0xFF + (if fn ≥ 62 then 0x3F00 else 0) + (if param % 256 = 1 then 0xFF0000 else 0)
  else if r.op = 0x62 then (if fn ≥ 62 then 0x3F else 0)
  else if r.op = 0x22 then 0xFFFFFFFF + (if fn ≥ 62 then 0x3F * 2 ^ 32 else 0)
  else r.mask

/-- Opcodes that name a target tenant in bits 5:0. -/
def targetOps : List Nat := [0x60, 0x61, 0x72, 0x74, 0x75, 0x76, 0x77]

/-- A defined parameter field lies in its range (R104 item 2). -/
def paramRange (s : State) (d : Desc) : Bool :=
  let lowTarget := d.bitsOf 5 0 < 32
  if targetOps.contains d.op && !lowTarget then false
  else if d.op = 0x62 && d.fn ≥ 62 && !lowTarget then false
  else if d.op = 0x03 then d.bitsOf 31 0 ≤ 125000
  else if d.op = 0x0B then d.bitsOf 20 0 ≤ 1048576
  else if d.op = 0x22 then d.bitsOf 37 32 < 32
  else if d.op = 0x30 || d.op = 0x31 then
    d.bitsOf 1 0 != 3 && d.bitsOf 11 8 < (s.tenant d.fn).profile.share
  else if d.op = 0x50 then d.bitsOf 7 0 ≤ 3 && (d.fn < 62 || d.bitsOf 13 8 < 32)
  else if d.op = 0x60 then d.bitsOf 63 32 == 0x464F524D
  else if d.op = 0x70 || d.op = 0x71 then accessOk (d.bitsOf 31 0) (d.bitsOf 39 32)
  else if d.op = 0x73 then d.bitsOf 63 32 == 0x52535431 && d.bitsOf 1 0 != 3
  else if d.op = 0x78 then 1 ≤ d.bitsOf 3 0 && d.bitsOf 3 0 ≤ 5
  else if d.op = 0x7A then lowTarget || d.bitsOf 5 0 == 62
  else if d.op = 0x90 then d.bitsOf 3 0 < 12
  else true

/-- The key of a request suits its opcode (R104 item 3, R121). -/
def keyOk (r : OpRow) (d : Desc) : Bool :=
  match r.key with
  | .none => d.key.isEmpty
  | .required => !d.key.isEmpty
  | .maybe => if d.bitsOf 1 0 = 2 then d.key.isEmpty else !d.key.isEmpty

/-- The total value length suits the opcode (R104 item 4, R133). -/
def valueOk (r : OpRow) (d : Desc) : Bool :=
  r.minLen ≤ d.total && d.total ≤ r.maxLen &&
    (d.op != 0x71 || d.total == 4 * d.bitsOf 39 32)

/-- Every option TLV is allowed for the opcode (R104 item 6). -/
def optsOk (d : Desc) : Bool := d.opts.all (fun o => (allowedOpts d.op d.param).contains o.1)

/-- The checks of R104, items 1 to 6: the first that fails decides. -/
def r104 (s : State) (d : Desc) : Option Status :=
  match opRow d.op with
  | none => some .opcode
  | some r =>
    if d.param.toNat &&& (2 ^ 64 - 1 - paramMask r d.fn d.param.toNat) ≠ 0 then some .fieldReserved
    else if !paramRange s d then some .range
    else if !keyOk r d then some .length
    else if !valueOk r d then some .length
    else if d.segCount > r.segs then some .segment
    else if !optsOk d then some .option
    else none

/-- The request that a descriptor holds is served by its own command: R104 first, then what the opcode does (item 7).
A command that names no such request does nothing (assumption log 6). -/
def State.serve (s : State) (id op : Nat) (act : Desc → State → State) : State :=
  match s.desc id with
  | none => s
  | some d =>
    if d.op = op && d.phase = .parsed then
      match r104 s d with
      | some st => s.refuse id st 0
      | none => act d s
    else s

/-- An option of a request, as a number. -/
def Desc.opt (d : Desc) (code : Nat) : Option Nat := (assoc d.opts code).map beNat

/-- Every HOLD_ID of a request (R108). -/
def Desc.holdIds (d : Desc) : List Nat := (d.opts.filter (fun o => o.1 == 0x09)).map (fun o => beNat o.2)

/-! ### Order 12 (R271, R272) -/

/-- A retry-after count from the deadlines of descriptors (R272). -/
def State.retryOf (s : State) (ds : List Desc) : Nat :=
  match ds.filterMap (·.deadline) with
  | [] => 625
  | x :: xs => max 1 (min 625 (xs.foldl min x - s.tick))

/-- The descriptors of the shared pool: those of tenants above their floors (R269). -/
def State.sharedDescs (s : State) : List Desc :=
  s.descs.filter (fun d => d.fn < 32 && s.descsOf d.fn > (s.tenant d.fn).profile.floorOf)

/-- The first bound of R271 that a request meets: the counter it is counted in (TNT_BP_*, as an offset of Table 7.4) and
the retry-after count. `total` is its total value length. -/
def State.bound12 (s : State) (fn total : Nat) : Option (Nat × Nat) :=
  let own := s.descs.filter (fun d => sameShare d.fn fn)
  let kib := ceilDiv total 1024
  let tagBound := if fn ≥ 62 then 256 else 4096
  let descOk := if fn ≥ 62 then s.descsOf fn < 256
    else s.descsOf fn < (s.tenant fn).profile.floorOf || s.sharedUsed < s.sharedLimit
  if s.tagsOf fn ≥ tagBound then some (0x100, s.retryOf own)
  else if !descOk then some (0x108, if fn ≥ 62 then s.retryOf own else s.retryOf s.sharedDescs)
  else if kib > 0 && (s.stagingOf fn + kib > 32768 || s.stagingUsed + kib > 262144) then some (0x110, 65)
  else none

/-- A BACKPRESSURE to the management function is counted (TNT_BP_MGMT). -/
def State.countMgmt (s : State) (fn : Nat) : State := if fn ≥ 62 then s.bump 0x00038108 else s

/-- A BACKPRESSURE is counted against its tenant, or against the management function (Tables 7.4, 7.5). -/
def State.countBack (s : State) (fn off : Nat) : State :=
  if fn ≥ 62 then s.countMgmt fn else s.bumpTnt fn off

end Sys2Proof.Machine
end

