-- ==== Sys2Proof/Machine/Receive.lean ====
section
/-! DEFINITION. Frames that arrive at a host port: admission (R252), step 1 (R253), take-aside (R254), the parser, the
decisions of Table 2.6, segmented transfers (R92 to R96) and the durable ceiling (R86). -/
namespace Sys2Proof.Machine
open Sys2Proof

/-! ### Admission (R252, R255) -/

/-- Frames admitted and not yet decided at an instant (ns), as (decided at, bytes). -/
def PortState.undecided (p : PortState) (instant : Nat) : List (Nat × Nat) :=
  p.admitted.filter (fun a => instant < a.1)

/-- The port's speed (HP_LINK SPEED): 0 while the link is down. -/
def PortState.speed (p : PortState) : Nat := if p.up then p.an.elim 0 (·.speed) else 0

/-- A frame whose first byte arrives at an instant is admitted (R252). -/
def PortState.admits (p : PortState) (instant : Nat) : Bool :=
  let w := p.undecided instant
  w.foldl (fun acc a => acc + a.2) 0 + 9216 ≤ 262144 && w.length ≤ 17 &&
    p.firstBytes ≤ (if p.speed = 2 then 12288 else 4096)

/-- The decision stage takes a frame at or after an instant, one every 64 ns (R255). -/
def PortState.decideAt (p : PortState) (instant : Nat) : Nat :=
  p.admitted.foldl (fun acc a => max acc a.1) instant + 64

/-- The addresses in force for a frame by the tick of its first byte (R247). -/
def PortState.addrsAt (p : PortState) (tick : Nat) : Addrs :=
  match (p.addrHist.filter (fun h => tick ≤ h.1)).getLast? with
  | some h => h.2
  | none => p.addrs

/-! ### Answers that hold no descriptor -/

/-- A first reply to a request that holds no descriptor. `keepTag` says whether its tag counts as in flight until the
reply has left; a tag refused with TAG_IN_USE does not count twice (7.3.1). -/
def State.turnAway (s : State) (p : Port) (r : Req) (space ext : Nat) (mac : Option Bytes) (st : Status) (param : Nat)
    (keepTag : Bool) : State :=
  let f : OutFrame :=
    { kind := .reply, dst := r.src, fn := r.fn, op := r.op, tag := r.tag, seq := r.seq, ext := ext, mac := mac,
      status := st, event := 0, param := BitVec.ofNat 64 param, opts := [], key := [], payload := [], segIndex := 0,
      segCount := 1, total := 0, isFirst := true, owner := none, final := none,
      tagOf := if keepTag then some (r.fn, space, r.tag) else none, resets := none, raw := [] }
  s.modPort p (fun q => q.enqueue s.tick [f])

/-- The function of a request exists (R73, R385). -/
def State.fnExists (s : State) (fn : Nat) : Bool :=
  if s.secure.lc = .scrapped then false
  else if fn < 32 then (s.tenant fn).state != .absent
  else if fn = 62 then true
  else if fn = 63 then s.makerOpen
  else false

/-- A segmented transfer in flight under a request's tag (R96). -/
def State.transferOf (s : State) (fn space tag : Nat) : Option (Desc × Xfer) :=
  s.descs.findSome? (fun d =>
    match d.phase with
    | .transfer x => if d.fn = fn && d.space = space && d.tag = tag then some (d, x) else none
    | _ => none)

/-- The segment rules that segment 0, or a request of one segment, shall keep (R92, 2.3.1). -/
def seg0Ok (r : Req) : Bool :=
  1 ≤ r.count && r.count ≤ 118 && r.index == 0 && r.last == (r.count == 1) &&
    (if r.count = 1 then r.payLen == r.total
     else 1 ≤ r.payLen && 1 ≤ r.total && segmentedOps.contains r.op)

/-- The highest sequence number that the drive itself has issued. -/
def State.issued (s : State) : Nat := s.ledger.nextSeq - 1

/-- A version floor above the highest issued number, on a local range (R46): a fault of option content. -/
def State.floorFault (s : State) (r : Req) : Bool :=
  match assoc (knownOpts r.opts) 0x08 with
  | none => false
  | some v =>
    let low := r.param.toNat % 2 ^ 32
    let key := if r.op = 0x11 || r.op = 0x12 then
        match (s.tenant r.fn).cursor low s.tick with
        | some c => c.pos.getD c.start
        | none => []
      else r.key
    let whole := (r.op == 0x30 || r.op == 0x31) && r.param.toNat % 4 == 2
    let isLocal := if whole then (s.tenantSets r.fn).all (· == 0) else s.keySet key == 0
    (allowedOpts r.op r.param).contains 0x08 && isLocal && beNat v > s.issued

/-- Orders 6 to 9 of Table 2.6: the first refusal that applies. A span-replicated value is at most 4,096 bytes
(5.3.1). -/
def State.order6to9 (s : State) (r : Req) : Option Status :=
  if r.reserved ≠ 0 || r.status ≠ 0 then some .fieldReserved
  else if !(match opRow r.op with
      | some row => row.mayIssue r.fn
      | none => false) then some .opcode
  else if tooDeep r.opts then some .optionDepth
  else match optFault r.op r.opts with
    | some st => some st
    | none =>
      if s.floorFault r then some .range
      else if r.keyLen > 255 || r.payLen > 8960 || r.total > 1048576 then some .length
      else if [0x08, 0x09, 0x0A, 0x0B].contains r.op && r.index = 0 && r.total > 4096 && s.keySet r.key != 0 then
        some .length
      else none

/-- The descriptor that a request takes (R270). `instant` is the instant, in ns, at which its frame finished parsing. -/
def descOf (id : Nat) (p : Port) (r : Req) (space ext : Nat) (mac : Option Bytes) (tick instant : Nat) : Desc :=
  { id := id, port := p, src := r.src, fn := r.fn, space := space, tag := r.tag, op := r.op, seq := r.seq, ext := ext,
    mac := mac, param := r.param, key := r.key, value := r.value, opts := knownOpts r.opts, segCount := r.count,
    total := r.total, arrival := tick, parsed := instant, phase := .parsed, first := none, deadline := none,
    staging := ceilDiv r.total 1024, refs := 0, tagFree := false, fetch := none }

/-- Segment 0 of a transfer of several segments: the common checks of R104, then SEGMENT_TAKEN (R93). -/
def State.beginTransfer (s : State) (d : Desc) : State :=
  let s := { s with descs := s.descs ++ [d] }
  match r104 s d with
  | some st => s.refuse d.id st 0
  | none =>
    let f := d.frame .segmentTaken 0 [] [] [] 0 1 0 true false
    (s.modPort d.port (fun p => p.enqueue s.tick [f])).modDesc d.id (fun d => { d with
      phase := .transfer { next := 1, lastTick := s.tick, pendingSeg := false }
      deadline := (hardBound d.op d.total).map (fun b => s.tick + 65 * (d.segCount - 1) + b) })

/-- Orders 10 to 12, and what becomes of a request that passes them (R92, R96, R89, R271). A frame with index 0 that breaks a
segment rule under the tag of a transfer in flight is refused with SEGMENT, as order 10 comes before order 11, and the transfer
continues, as R96 has it for such a frame (DESIGN CHOICE, assumption log 109). -/
def State.orders10on (s : State) (p : Port) (r : Req) (space ext : Nat) (mac : Option Bytes) (instant : Nat) : State :=
  match s.transferOf r.fn space r.tag with
  | some (d, x) =>
    if 0 < r.index then
      if x.pendingSeg || s.tick ≤ x.lastTick + 64 then
        let g : Seg :=
          { id := d.id, port := p, op := r.op, index := r.index, count := r.count, total := r.total,
            keyLen := r.keyLen, last := r.last, payload := r.value, arrival := s.tick, parsed := instant, seq := r.seq, ext := ext,
            mac := mac, src := r.src }
        { s.setPhase d.id (.transfer { x with pendingSeg := true }) with segs := s.segs ++ [g] }
      else s.turnAway p r space ext mac .segment 0 false
    else if !seg0Ok r then s.turnAway p r space ext mac .segment 0 false
    else s.turnAway p r space ext mac .tagInUse 0 false
  | none =>
    if !seg0Ok r then s.turnAway p r space ext mac .segment 0 (!s.tagInFlight r.fn space r.tag)
    else if s.tagInFlight r.fn space r.tag then s.turnAway p r space ext mac .tagInUse 0 false
    else match s.bound12 r.fn r.total with
      | some (counter, retry) => (s.turnAway p r space ext mac .backpressure retry true).countBack r.fn counter
      | none =>
        let d := descOf s.nextDesc p r space ext mac s.tick instant
        let s := { s with nextDesc := s.nextDesc + 1 }
        if r.count > 1 then s.beginTransfer d else { s with descs := s.descs ++ [d] }

/-- A request is counted in its tenant's open metering period (R182). -/
def State.meterRequest (s : State) (fn : Nat) : State :=
  if fn < 32 then
    s.modTenant fn (fun t => { t with period := { t.period with requests := t.period.requests + 1 } })
  else s

/-- Orders 4 to 12 of Table 2.6. -/
def State.orders4on (s : State) (p : Port) (r : Req) (space ext : Nat) (mac : Option Bytes) (instant : Nat) : State :=
  let s := s.meterRequest r.fn
  let t := s.tenant r.fn
  let away (st : Status) (param : Nat) (s : State) : State :=
    s.turnAway p r space ext mac st param (!s.tagInFlight r.fn space r.tag)
  if r.fn < 32 && t.state == .wedged then away .wedged 0 s
  else if r.fn < 32 && [TenantState.stopped, .draining, .squashing, .removing].contains t.state then
    away .resetting 0 s
  else if r.fn < 32 && t.state == .busy then
    let b := s.busyParam r.fn
    away .busy b.1 b.2
  else match s.order6to9 r with
    | some st => away st 0 s
    | none => s.orders10on p r space ext mac instant

/-- The most recent request to the management function accepted on a port under R84 (R461). `instant` orders the two
ports' registrations. -/
def State.register (s : State) (p : Port) (r : Req) (instant : Nat) : State :=
  if r.fn = 62 then s.modPort p (fun q => { q with reg := some (r.src, instant) }) else s

/-- A tag check that failed, counted for its function (R383). -/
def State.countAuthFail (s : State) (fn : Nat) : State := if fn < 32 then s.bumpTkp fn 0x418 else s.bump 0x00070110

/-- The decisions of Table 2.6 (R90): the first refusal that applies, or the opcode's own command is left to serve the
request. A later segment of a transfer whose E lies above D is answered BACKPRESSURE as R86 has it, though R93 says that a later
segment never is (DESIGN CHOICE, assumption log 110). -/
def State.decide (s : State) (p : Port) (r : Req) (instant : Nat) : State :=
  let space := spaceOf r.opts
  let fresh := !s.tagInFlight r.fn space r.tag
  if !s.fnExists r.fn then s.turnAway p r space 0 none .functionAbsent 0 fresh
  else
    let required := r.fn ≥ 62 || (s.tenant r.fn).profile.authReq
    match r.auth with
    | none =>
      if required then (s.turnAway p r space 0 none .authFail 0 fresh)
      else s.orders4on p r space 0 none instant
    | some tag =>
      match s.macKey r.fn with
      | none => (s.countAuthFail r.fn).turnAway p r space 0 none .authFail 0 fresh
      | some k =>
        let x := s.space r.fn space
        let e := x.extend r.seq
        if cmac k (toBe 8 e ++ r.body) ≠ tag then
          (s.countAuthFail r.fn).turnAway p r space 0 none .authFail 0 fresh
        else if x.d < e then
          ((s.modSpace r.fn space (fun x => { x with dNext := some ((e / 2 ^ 32 + 1) * 2 ^ 32) })).turnAway
            p r space e (some k) .backpressure 1250 fresh).countMgmt r.fn
        else if !x.admits e then s.turnAway p r space e (some k) .replay ((x.h + 1) % 2 ^ 64) fresh
        else ((s.modSpace r.fn space (·.mark e)).register p r instant).orders4on p r space e (some k) instant

/-- A frame that has passed step 1: taken aside, dropped by the parser, or decided (R254, R69). `b` is the frame without
its FCS. -/
def State.sortFrame (s : State) (p : Port) (b : Bytes) (first instant : Nat) : State :=
  let q := s.port p
  let s := s.bumpPort p 0x100
  if b.take 6 == [0x01#8, 0x80#8, 0xC2#8, 0#8, 0#8, 0x0E#8] && u16 b 12 == 0x88CC then
    (s.bumpPort p 0x130).modPort p (fun q => { q with lldpIn := q.lldpIn ++ [(s.tick, b)] })
  else if u16 b (12 + 4 * (vlanTpids b).length) = 0x8808 then s.bumpPort p 0x128
  else
    let mac := match p with
      | .a => s.ident.macA
      | .b => s.ident.macB
    match parseFrame mac (q.addrsAt (first / 8000)) b with
    | .error counter => s.bumpPort p counter
    | .ok r =>
      let s := (s.bumpPort p 0x178).modPort p (fun q => { q with
        admitted := (q.decideAt instant, b.length + 4) :: q.undecided first })
      s.decide p r instant

/-- A frame that arrives whole, its last byte `pos` ns into the tick and its first byte `dur` ns earlier. -/
def State.frameArrives (s : State) (p : Port) (frame : Bytes) (pos dur : Nat) : State :=
  let instant := s.tick * 8000 + pos
  let first := instant - dur
  let q := s.port p
  if !s.serving || !q.up || !q.ctrl.getLsbD 0 then s
  else
    let s := s.modPort p (fun q => q.wake s.tick)
    if !q.admits first then s.bumpPort p 0x120
    else if frame.length > 9216 then s.bumpPort p 0x110
    else if frame.length < 64 then s.bumpPort p 0x118
    else
      let b := frame.take (frame.length - 4)
      if leNat (frame.drop (frame.length - 4)) ≠ fcsOf b then s.bumpPort p 0x108
      else s.sortFrame p b first instant

/-- HOST_FRAME_RECEIVE (R69, R252 to R254, R90). A port that is not served, down or disabled takes no frame. -/
def execHostFrameReceive (port : Port) (frame : Bytes) (pos dur : Nat) (s : State) :
    Host.Outcome State Fault Refusal :=
  .next (s.frameArrives port frame pos dur)

/-- DURABLE_CEILING_WRITE (R86): a background write of D to both pSLC configuration copies completes. -/
def execDurableCeilingWrite (fn space : Nat) (s : State) : Host.Outcome State Fault Refusal :=
  .next (s.modSpace fn space (fun x =>
    match x.dNext with
    | some d => { x with d := d, dNext := none }
    | none => x))

/-! ### Segmented transfers (2.7) -/

/-- A reply to one segment, under that segment's own sequence number and on its own port. -/
def segReply (d : Desc) (g : Seg) (st : Status) (final : Bool) : OutFrame :=
  { d.frame st 0 [] [] [] 0 1 0 true final with dst := g.src, seq := g.seq, ext := g.ext, mac := g.mac, op := g.op }

/-- The segments of a transfer that stand undecided when it ends or is whole are refused, each under its own sequence number: no
request that has parsed goes without a reply (R91), and their tag matches no transfer in flight (R92), or the function is
resetting (order 4). -/
def State.refuseSegs (s : State) (d : Desc) (st : Status) : State :=
  let s' := (s.segs.filter (fun g => g.id == d.id)).foldl (fun s g =>
    s.modPort g.port (fun p => p.enqueue s.tick [{ segReply d g st false with owner := none }])) s
  { s' with segs := s.segs.filter (fun g => g.id != d.id) }

/-- A transfer ends without its opcode: its staging is free, and segments of it that stand undecided are refused (R91, R95). A
tenant's discard is counted (TNT_SEG_DISC). -/
def State.discardTransfer (s : State) (d : Desc) (st : Status) : State :=
  let s := s.refuseSegs d st
  if d.fn < 32 then s.bumpTnt d.fn 0x128 else s

/-- A continuing segment keeps the rules of R92 for the transfer that it continues. -/
def segOk (d : Desc) (x : Xfer) (g : Seg) : Bool :=
  g.port == d.port && g.op == d.op && g.count == d.segCount && g.total == d.total && g.keyLen == 0 &&
    g.index == x.next && g.last == (g.index + 1 == g.count) && 1 ≤ g.payload.length &&
    (g.index + 1 != g.count || d.value.length + g.payload.length == d.total)

/-- A segment taken: its bytes join the value, and a later reply echoes its sequence number (assumption log 12). -/
def Desc.tookSeg (d : Desc) (g : Seg) : Desc :=
  { d with value := d.value ++ g.payload, seq := g.seq, ext := g.ext, mac := g.mac, src := g.src }

/-- SEGMENT_CONTINUE (R92 to R94, R96): the transfer's oldest undecided segment is taken, passes the whole value to its
opcode, or discards the transfer. -/
def State.segmentTaken (s : State) (id : Nat) : State :=
  match s.desc id, s.segs.find? (fun g => g.id == id) with
  | some d, some g =>
    match d.phase with
    | .transfer x =>
      let s := { s with segs := s.segs.erase g }
      let more := s.segs.any (fun g => g.id == id)
      if g.arrival > x.lastTick + 64 then
        (s.modPort g.port (fun p => p.enqueue s.tick [segReply d g .segment false])).setPhase id
          (.transfer { x with pendingSeg := more })
      else if !segOk d x g then
        ((s.modPort g.port (fun p => p.enqueue s.tick [segReply d g .segment true])).modDesc id
          (fun d => { d with phase := .closing, staging := 0 })).discardTransfer d .segment
      else if g.index + 1 = g.count then
        (s.modDesc id (fun d => { d.tookSeg g with
          phase := .parsed, arrival := g.arrival, parsed := g.parsed, deadline := none })).refuseSegs d .segment
      else
        (s.modPort g.port (fun p => p.enqueue s.tick [segReply d g .segmentTaken false])).modDesc id
          (fun d => { d.tookSeg g with
            phase := .transfer { next := g.index + 1, lastTick := g.arrival, pendingSeg := more }
            deadline := (hardBound d.op d.total).map (fun b => g.arrival + 65 * (d.segCount - g.index - 1) + b) })
    | _ => s
  | _, _ => s

/-- SEGMENT_CONTINUE. -/
def execSegmentContinue (id : Nat) (s : State) : Host.Outcome State Fault Refusal := .next (s.segmentTaken id)

/-- SEGMENT_LATE (R94): at tick t + 65, with no segment undecided, the transfer is discarded and its tag refused with
SEGMENT_LATE and the last index taken. -/
def execSegmentLate (id : Nat) (s : State) : Host.Outcome State Fault Refusal :=
  match s.desc id with
  | some d =>
    match d.phase with
    | .transfer x =>
      if x.lastTick + 65 ≤ s.tick && !x.pendingSeg then
        .next ((s.refuse id .segmentLate (x.next - 1)).discardTransfer d .segment)
      else .next s
    | _ => .next s
  | none => .next s

end Sys2Proof.Machine
end

