-- ==== Sys2Proof/Machine/SpanOps.lean ====
section
/-! DEFINITION. What the rest of the drive asks of the span: the configuration record (Table 5.9), replication sets
(R200, R201, R207, R224), slots (R191) and the room of the next batch (R196, R197). -/
namespace Sys2Proof.Machine
open Sys2Proof

/-! ### The configuration record (Table 5.9) -/

/-- The record in force, or one of zeros. -/
def Span.record (x : Span) : Bytes := x.cfg.getD (List.replicate 96 0#8)

def cfgIdentity (r : Bytes) : Bytes := slice r 0 16
def cfgEpoch (r : Bytes) : Nat := u32 r 16
def cfgN (r : Bytes) : Nat := byteAt r 20
def cfgS (r : Bytes) : Nat := byteAt r 21

/-- Member ids in ring order. -/
def cfgRing (r : Bytes) : List Nat := ((slice r 24 12).map (·.toNat)).takeWhile (fun m => m != 0xFF)

/-- The member bitmap of a set, 1 to 15. -/
def cfgSet (r : Bytes) (set : Nat) : Nat := if set = 0 then 0 else u16 r (46 + 2 * set)

/-- The configuration digest (R231). -/
def cfgDigest (r : Bytes) : Bytes := (sha384 r).take 16

/-- Bits set in a 16-bit map. -/
def popcount (m : Nat) : Nat := ((List.range 16).filter (bit m)).length

/-- The members of a bitmap, lowest first. -/
def membersOf (m : Nat) : List Nat := (List.range 16).filter (bit m)

/-- A bitmap of member ids. -/
def mapOf (l : List Nat) : Nat := (List.range 16).foldl (fun acc i => acc + flagAt (l.contains i) i) 0

/-- A configuration record that R231 admits. A set not used has no member; a set of 0 members is refused where it is
named. -/
def cfgValid (r : Bytes) : Bool :=
  let ring := cfgRing r
  r.length == 96 && 2 ≤ cfgN r && cfgN r ≤ 12 && 1 ≤ cfgS r && cfgS r ≤ 8 && ring.length == cfgN r &&
    ring.eraseDups.length == ring.length && ring.all (· < 12) &&
    (slice r 24 12).all (fun b => b == 0xFF#8 || b.toNat < 12) &&
    (List.range 15).all (fun i => popcount (cfgSet r (i + 1)) ≤ 7 &&
      (membersOf (cfgSet r (i + 1))).all ring.contains)

/-! ### Sets -/

/-- A set's state at this member. -/
def Span.set (x : Span) (id : Nat) : Option SetState := x.sets.find? (fun y => y.id == id)

/-- The span with one set changed. -/
def Span.modSet (x : Span) (id : Nat) (f : SetState → SetState) : Span :=
  { x with sets := x.sets.map (fun y => if y.id = id then f y else y) }

/-- This member belongs to a set (R200). -/
def Span.belongs (x : Span) (set : Nat) : Bool := bit (cfgSet x.record set) x.me

/-- A set is fenced at this member (R224). -/
def Span.fencedAt (x : Span) (set : Nat) : Bool := (x.set set).elim false (·.fenced)

/-- A set is read-only (R207). -/
def Span.readOnlyAt (x : Span) (set : Nat) : Bool := (x.set set).elim false (·.readOnly)

/-- The highest sequence number of a set that this member has made visible (R46). -/
def Span.visibleOf (x : Span) (set : Nat) : Nat := (x.set set).elim 0 (fun y => y.nextSeq - 1)

/-- A set fenced (R224, R225, R226): its writes and reads are answered FENCED and it waits for resynchronisation. -/
def State.fence (s : State) (set : Nat) : State :=
  if set = 0 then s else { s with span := s.span.modSet set (fun y => { y with fenced := true }) }

/-! ### Slots (R191, R193) -/

/-- The present members in ring order, the time master first (R191). -/
def Span.slotOrder (x : Span) : List Nat :=
  let ring := (cfgRing x.record).filter x.present.contains
  let (before, after) := (ring.takeWhile (· != x.master), ring.dropWhile (· != x.master))
  after ++ before

/-- The slot length in force (R191). -/
def Span.slotLen (x : Span) : Nat := max 1 (cfgS x.record)

/-- The length of a rotation in ticks (R191). -/
def Span.rotationTicks (x : Span) : Nat := x.slotOrder.length * x.slotLen

/-- The member whose slot the last rein names (Table 5.3). -/
def Span.holder (x : Span) : Nat := x.rein.elim x.me (fun r => byteAt r 40)

/-- The present span tick: the local tick count mapped by the offset (R193). -/
def State.spanTick (s : State) : Int := (s.tick : Int) + s.span.offset

/-- Ticks to the start of this member's next slot, at least 1 (R191, R197). -/
def State.ticksToSlot (s : State) : Nat :=
  let x := s.span
  let rot := max 1 x.rotationTicks
  let pos := (x.slotOrder.takeWhile (· != x.me)).length * x.slotLen
  let held := (x.slotOrder.takeWhile (· != x.holder)).length * x.slotLen
  let at_ : Int := (x.slotTick : Int) + (pos : Int) - (held : Int) - s.spanTick
  let d := (at_ % (rot : Int)).toNat
  if d = 0 then rot else d

/-- The batch capacity in bytes (R196), less what a loop delay above 4,000 ns takes (R188). -/
def Span.batchBytes (x : Span) : Nat := (x.slotLen * 8000 - 5512 - (x.loopDelay - 4000)) * 25 / 8

/-- The engine steps of an entry (R167): 64 for a posting, the declared steps of a program. -/
def Entry.cost (e : Entry) : Nat :=
  match e.kind with
  | .post => 64
  | .program => e.steps
  | _ => 0

/-- The steps of an entry that the engine has not executed yet (R167): none once it has been decided. -/
def Entry.unexecuted (e : Entry) : Nat := if e.effects.isSome then 0 else e.cost

/-- The key-area, value and read-set bytes of an entry as a batch carries it (Table 5.4). -/
def Entry.wireLen (e : Entry) (readSet : Nat) : Nat := 32 + e.key.length + e.value.length + 8 * readSet

/-- A request's first reply ACCEPTED with a hard bound of its own in place of Table 3.1's (R272): `none` for a long operation. -/
def State.acceptBy (s : State) (id : Nat) (ph : Phase) (bound : Option Nat) : State :=
  (s.accept id ph).modDesc id (fun d => { d with deadline := bound.bind (fun b => d.first.map (· + b)) })

/-- Bound S at its hard value (R107): one rotation plus 2 ticks. -/
def State.boundS (s : State) : Nat := s.span.rotationTicks + 2

/-- The bytes of entries in a batch. -/
def bytesOf (es : List Entry) : Nat := es.foldl (fun acc x => acc + x.wireLen x.readSet.length) 0

/-- The steps of entries in a batch. -/
def stepsOf (es : List Entry) : Nat := es.foldl (fun acc x => acc + x.cost) 0

/-- Entries fit one batch: by bytes within C, and by steps within the step budget (R196, R197). -/
def Span.fits (x : Span) (es : List Entry) : Bool := bytesOf es ≤ x.batchBytes && stepsOf es ≤ 6144 * x.slotLen

/-- The longest front part of entries that fits one batch. -/
def Span.fitting (x : Span) (es : List Entry) : List Entry :=
  es.take (((List.range (es.length + 1)).reverse.find? (fun n => x.fits (es.take n))).getD 0)

/-- The bytes that can still be sent before the window of the slot under way closes, from the start of the present tick (R192). -/
def State.windowBytes (s : State) : Nat :=
  ((((s.span.slotAt.getD 0 + s.span.slotLen : Nat) : Int) - s.spanTick) * 8000 - 256).toNat * 25 / 8

/-- The batch that takes an entry (R197): that of the slot under way while the entry can be sent before its window closes (`false`),
else that of the following slot (`true` while a slot is under way); none where it does not fit. -/
def State.batchPlace (s : State) (e : Entry) : Option Bool :=
  let x := s.span
  if !x.inSlot then (if x.fits (x.own ++ [e]) then some false else none)
  else if !x.forfeiting && x.fits (x.own ++ [e]) && e.wireLen e.readSet.length ≤ s.windowBytes then some false
  else if x.fits (x.later ++ [e]) then some true
  else none

/-- An entry fits a batch of this member (R197). -/
def State.batchRoom (s : State) (e : Entry) : Bool := (s.batchPlace e).isSome

/-- An entry admitted to its batch. -/
def State.joinBatch (s : State) (e : Entry) : State :=
  if s.batchPlace e = some true then { s with span := { s.span with later := s.span.later ++ [e] } }
  else { s with span := { s.span with own := s.span.own ++ [e] } }

/-- The entries admitted to this member's batches and not yet sent. -/
def Span.unsent (x : Span) : List Entry := x.own ++ x.later

/-- The span without the unsent entries that a test picks. -/
def Span.without (x : Span) (p : Entry → Bool) : Span :=
  { x with own := x.own.filter (fun e => !p e), later := x.later.filter (fun e => !p e) }

/-- Every entry of a set in a batch has been applied here, or is void. -/
def Batch.doneFor (b : Batch) (set : Nat) : Bool :=
  b.complete && b.entries.all (fun e => e.ent.set != set || e.done || e.kind == 0)

/-! ### The ring's transmitters (R185, R219, Table 5.8) -/

/-- The priority of a frame of this member's own (Table 5.8). -/
def txPrio (type : Nat) : Nat :=
  if type = 1 then 2 else if type = 2 || type = 3 then 3 else if type = 4 || type = 5 then 4
  else if type = 12 || type = 13 then 6 else 5

/-- A frame put behind those that wait with its priority or a higher one. -/
def queueTx (f : TxFrame) : List TxFrame → List TxFrame
  | [] => [f]
  | g :: rest => if f.prio < g.prio then f :: g :: rest else g :: queueTx f rest

/-- A frame put on the ring at once. -/
def Span.put (x : Span) (primary : Bool) (frame : Bytes) : Span :=
  { x with
    out := (primary, frame) :: x.out
    sentP := if primary then x.sentP + frame.length else x.sentP
    sentS := if primary then x.sentS else x.sentS + frame.length }

/-- Waiting frames leave in the order of their priority while their transmitter has room in the tick: 25,000 bytes at 25 Gb/s. A frame
begun is never cut, so it may reach into the next tick. -/
def Span.drain (x : Span) : Span :=
  let y := x.tx.foldl (fun (y : Span) f =>
    if (if f.primary then y.sentP else y.sentS) < 25000 then y.put f.primary f.bytes else { y with tx := y.tx ++ [f] })
    { x with tx := [] }
  { y with sentP := y.sentP - 25000, sentS := y.sentS - 25000 }

end Sys2Proof.Machine
end

