-- ==== Sys2Proof/Machine/Cinch.lean ====
section
/-! DEFINITION. The cinch: credit, grants, preemption, backoff and starvation of the 16 flash channels (R279 to R289,
R426). -/
namespace Sys2Proof.Machine
open Sys2Proof

/-! ### Shared operations -/

/-- A requester's weight (R281). -/
def State.weightOf (s : State) (r : Nat) : Nat :=
  if r < 32 then (s.tenant r).profile.weight
  else if r = 32 then s.cinch.wSpan else if r = 33 then s.cinch.wScrub else s.cinch.wUpdate

/-- The descriptors that a tenant's reset waits for: its own, and that of a long operation on it that another function
issued (R274). -/
def State.resetDescs (s : State) (t : Nat) : List Desc :=
  s.descs.filter (fun d => d.fn == t || ((s.tenant t).longOp.bind (·.issuer)) == some d.id)

/-- Nothing of a tenant is left to wait for: its reset is complete (R274). -/
def State.drained (s : State) (t : Nat) : Bool := (s.resetDescs t).isEmpty && (s.tenant t).longOp.isNone

/-- MASK of a requester (R277, R287): a tenant that is WEDGED, or SQUASHING and not yet complete. -/
def State.masked (s : State) (r : Nat) : Bool :=
  r < 32 && ((s.tenant r).state == .wedged || ((s.tenant r).state == .squashing && !s.drained r))

/-- A channel's arbiter. -/
def State.chan (s : State) (ch : Nat) : Channel := s.cinch.chans.getD ch { reqs := [], owner := none, beats := 0 }

/-- The state with one channel changed. -/
def State.modChan (s : State) (ch : Nat) (f : Channel → Channel) : State :=
  { s with cinch := { s.cinch with chans := s.cinch.chans.modify ch f } }

/-- A requester on a channel. -/
def Channel.req (c : Channel) (r : Nat) : Requester := c.reqs.getD r Requester.idle

/-- The channel with one requester changed. -/
def Channel.modReq (c : Channel) (r : Nat) (f : Requester → Requester) : Channel := { c with reqs := c.reqs.modify r f }

/-- A transfer of `bytes` of a requester's work that has not begun (R280). -/
def Flow.new (desc : Option Nat) (home bytes : Nat) (boundF : Bool) : Flow :=
  { desc := desc, home := home, record := none, bytes := max 512 (min bytes 262144), boundF := boundF, urgent := none,
    moved := 0, plain := 0 }

/-- The transfers that a number of bytes takes: 256 KiB each, and the rest (R280). -/
def Flow.parts (desc : Option Nat) (home bytes : Nat) (boundF : Bool) : List Flow :=
  List.replicate (bytes / 262144) (Flow.new desc home 262144 boundF) ++
    (if bytes % 262144 = 0 && 0 < bytes then [] else [Flow.new desc home (bytes % 262144) boundF])

/-- Transfers queued for a requester on a channel (R279). -/
def State.queueFlows (s : State) (ch r : Nat) (fs : List Flow) : State :=
  s.modChan (ch % 16) (·.modReq r (fun q => { q with flows := q.flows ++ fs }))

/-- The requester on which a tenant's background work queues (R288): SCRUB while the tenant is WEDGED. -/
def State.workQueue (s : State) (t : Nat) : Nat := if t < 32 && (s.tenant t).state == .wedged then 33 else t

/-- Background work queued for a requester (R279): `bytes` to move on a channel, of the commit record `record` where it destages
one. -/
def State.queueWork (s : State) (ch home bytes : Nat) (record : Option Nat) : State :=
  s.queueFlows ch (s.workQueue home) ((Flow.parts none home bytes false).map (fun f => { f with record := record }))

/-- Background reads and programs over the channels that some records lie on, one transfer of a free size on each: reclaim, or a
rewrite (R130, R268, R279; assumption log 121). -/
def State.queueSweep (s : State) (home t : Nat) (recs : List Rec) : State :=
  let chans := (recs.map (fun r => Config.channelOf t r.key r.version % 16)).eraseDups
  chans.foldl (fun s ch => { s with free := s.free + 1 }.queueWork ch home (Config.openValue s.free 0 % 262145) none) s

/-- Background work that outlives a restart of the controller: that of tenants and of SCRUB (R277, R288), and every destage (R299). The
SPAN and UPDATE exchanges that the others carry are over. -/
def Flow.survives (f : Flow) : Bool := f.desc.isNone && (f.home < 32 || f.home == 33 || f.record.isSome)

/-- A channel after a restart: every requester as at reset but for the background work that survives, back at the requester whose it
is (R288). Its progress count stands unless the rails went off. -/
def Channel.restarted (cold : Bool) (c : Channel) : Channel :=
  let work := (c.reqs.flatMap (·.flows)).filter (·.survives)
  { reqs := (List.range 35).map (fun r => { Requester.idle with
      flows := (work.filter (fun f => f.home == r)).map (fun f => { f with moved := if cold then 0 else f.moved }) })
    owner := none
    beats := 0 }

/-- The cinch after a restart, its registers at their Reset values. -/
def Cinch.restarted (x : Cinch) (cold : Bool) : Cinch := { Cinch.reset with chans := x.chans.map (Channel.restarted cold) }

/-- A requester without the transfers of a descriptor. -/
def Requester.without (q : Requester) (id : Nat) : Requester :=
  { q with flows := q.flows.filter (fun f => f.desc != some id) }

/-- A channel without the transfers of a descriptor; a grant held for one is given up. -/
def Channel.without (c : Channel) (id : Nat) : Channel :=
  let held := c.owner.elim false (fun r => ((c.req r).flows.head?).elim false (fun f => f.desc == some id))
  { c with reqs := c.reqs.map (·.without id), owner := if held then none else c.owner }

/-- Every transfer of a descriptor removed from the cinch. -/
def State.dropFlows (s : State) (id : Nat) : State :=
  { s with cinch := { s.cinch with chans := s.cinch.chans.map (·.without id) } }

/-- A grant that a requester holds is taken back, with P kept; neither L nor B changes (R287). -/
def State.takeBack (s : State) (r : Nat) : State :=
  let n := (s.cinch.chans.filter (fun c => c.owner == some r)).length
  let free (c : Channel) : Channel := if c.owner = some r then { c with owner := none } else c
  ({ s with cinch := { s.cinch with chans := s.cinch.chans.map free } }).bumpBy 0x00040210 n

/-- Credit held between its limits (R280). -/
def clampCredit (k : Int) : Int := max (-1048576) (min 262144 k)

/-- The holder moves beats of 512 bytes, and loses as much credit (R281). -/
def Requester.move (q : Requester) (beats : Nat) : Requester :=
  match q.flows with
  | [] => q
  | f :: rest =>
    { q with
      k := clampCredit (q.k - 512 * (beats : Int))
      flows := { f with moved := min f.bytes (f.moved + 512 * beats) } :: rest }

/-- Beats that a transfer has left. -/
def Flow.left (f : Flow) : Nat := ceilDiv (f.bytes - f.moved) 512

/-- Beats that a transfer moves in a tick: 25, or fewer where its search lane, at 32,000 plaintext bytes a tick, does
not keep pace with the channel (R280, R357). -/
def Flow.beatsPerTick (f : Flow) : Nat := if f.plain = 0 then 25 else min 25 (max 1 (32000 * f.bytes / (f.plain * 512)))

/-- The beats that a channel's holder moves in a tick. -/
def Channel.pace (c : Channel) : Nat :=
  (c.owner.bind (fun r => (c.req r).flows.head?)).elim 25 Flow.beatsPerTick

/-- A channel at the start of a tick (R281): its holder has moved the beats of the tick before, every other requester
with work pending gains credit, and the ticks waited without a grant count up (R292): those with non-urgent work and MASK clear
count toward starvation (R289). -/
def State.creditTick (s : State) (c : Channel) : Channel :=
  let reqs := c.reqs.mapIdx (fun r q =>
    if c.owner = some r then
      q.move (min (c.pace - c.beats) (q.flows.head?.elim 0 Flow.left))
    else if q.flows.isEmpty then { q with wait := 0, starve := 0 }
    else
      { q with
        k := clampCredit (q.k + 16 * (s.weightOf r : Int))
        wait := q.wait + 1
        starve := if s.masked r || q.flows.all (·.urgent.isSome) then 0 else q.starve + 1 })
  { c with reqs := reqs, beats := 0 }

/-- Requesters eligible on a channel (R282). -/
def State.eligible (s : State) (c : Channel) : List Nat :=
  (List.range 35).filter (fun r => !(c.req r).flows.isEmpty && !s.masked r && c.owner != some r)

/-- The tick in which a requester's oldest urgent transfer became urgent. -/
def Requester.urgentAt (q : Requester) : Option Nat :=
  q.flows.foldl (fun best f =>
    match best, f.urgent with
    | none, u => u
    | some b, some u => if u < b then some u else some b
    | some b, none => some b) none

/-- The requester whose urgent transfer is the oldest; equal ages go to the lowest number (R283 step 1). -/
def oldestUrgent (c : Channel) (rs : List Nat) : Option Nat :=
  (rs.foldl (fun best r =>
    match best, (c.req r).urgentAt with
    | none, some u => some (r, u)
    | some (b, v), some u => if u < v then some (r, u) else some (b, v)
    | x, none => x) (none : Option (Nat × Nat))).map (·.1)

/-- The requester of the highest credit; equal credits go to the lowest number (R283). -/
def highestCredit (c : Channel) (rs : List Nat) : Option Nat :=
  rs.foldl (fun best r =>
    match best with
    | none => some r
    | some b => if (c.req b).k < (c.req r).k then some r else some b) none

/-- The candidate of R283, with the step that picks it. -/
def State.candidate (s : State) (c : Channel) : Option (Nat × Nat) :=
  let rs := s.eligible c
  match oldestUrgent c rs with
  | some r => some (r, 1)
  | none =>
    match highestCredit c (rs.filter (fun r => (c.req r).b == 0)) with
    | some r => some (r, 2)
    | none => (highestCredit c rs).map (·, 3)

/-- The requester's urgent transfer of the earliest tick moved to the front. -/
def Requester.urgentFirst (q : Requester) : Requester :=
  match q.urgentAt with
  | none => q
  | some u =>
    match q.flows.find? (fun f => f.urgent == some u) with
    | none => q
    | some f => { q with flows := f :: q.flows.erase f }

/-- A grant to a requester (R283): the B of every other falls by 1, and step 3 clears the grantee's. -/
def Channel.grant (c : Channel) (r step : Nat) : Channel :=
  { c with
    owner := some r
    reqs := c.reqs.mapIdx (fun i q =>
      if i = r then
        { (if step = 1 then q.urgentFirst else q) with wait := 0, starve := 0, b := if step = 3 then 0 else q.b }
      else { q with b := q.b - 1 }) }

/-- A grant made on a channel and counted (R283, R426). -/
def State.grantOn (s : State) (ch r step : Nat) : State :=
  let s := (s.modChan ch (·.grant r step)).bump 0x00040200
  let s := if step = 1 then s.bump 0x00040218 else s
  { s with power := { s.power with actUntil := s.tick + 6250 } }

/-- The arbiter grants a free channel (R283). -/
def State.arbitrate (s : State) (ch : Nat) : State :=
  let c := s.chan ch
  if c.owner.isSome then s
  else match s.candidate c with
    | some (r, step) => s.grantOn ch r step
    | none => s

/-! ### The commands of the cinch -/

/-- CINCH_CREDIT_TICK (R281, R357). -/
def execCinchCreditTick (s : State) : Host.Outcome State Fault Refusal :=
  let stalls := (s.cinch.chans.filter (fun c => c.pace < 25)).length
  .next ({ s with cinch := { s.cinch with chans := s.cinch.chans.map s.creditTick } }.bumpBy 0x00050138 stalls)

/-- CINCH_GRANT (R283). -/
def execCinchGrant (ch : Fin 16) (s : State) : Host.Outcome State Fault Refusal := .next (s.arbitrate ch.val)

/-- The least number of beats that the holder moves before a requester's credit lies above its own by more than the
margin (R285). A holder whose credit stands at its lower limit falls no further, so a requester may never lead by that much
(R280, 7.5.5). -/
def beatsToLoss (kr kh : Int) (margin : Nat) : Option Nat :=
  if kr + 1048576 ≤ (margin : Int) then none else some (((margin : Int) - (kr - kh)) / 512 + 1).toNat

/-- The holder moves beats: the channel stands free after them, and a transfer that has moved whole is over (R286). -/
def Channel.yield_ (c : Channel) (h beats : Nat) : Channel :=
  let ends := ((c.req h).flows.head?).elim 0 Flow.left ≤ beats
  let c' := c.modReq h (fun q => let q := q.move beats; if ends then { q with l := 0, flows := q.flows.drop 1 } else q)
  { c' with owner := none, beats := c.beats + beats }

/-- CINCH_PREEMPT (R284, R285): an urgent transfer takes the channel from a non-urgent holder at the next beat boundary;
a requester whose credit leads by more than the margin takes it as a loss of the holder. -/
def State.preempt (s : State) (ch : Nat) : State :=
  let c := s.chan ch
  match c.owner with
  | none => s
  | some h =>
    let q := c.req h
    let f := q.flows.headD (Flow.new none h 512 false)
    let rs := s.eligible c
    if f.urgent.isSome then s
    else match oldestUrgent c rs with
      | some r =>
        (s.modChan ch (fun _ => c.yield_ h (min 1 (c.pace - c.beats)))).grantOn ch r 1
      | none =>
        match highestCredit c (rs.filter (fun r => (c.req r).b == 0)) with
        | none => s
        | some r =>
          match beatsToLoss (c.req r).k q.k s.cinch.margin with
          | none => s
          | some j =>
            if s.cinch.preemptEn && j ≤ c.pace - c.beats && j < f.left then
              let l := min (q.l + 1) 6
              let c := (c.yield_ h j).modReq h (fun q => { q with l := l, b := 2 ^ l })
              ((s.modChan ch (fun _ => c)).grantOn ch r 2).bump 0x00040208
            else s

/-- CINCH_PREEMPT. -/
def execCinchPreempt (ch : Fin 16) (s : State) : Host.Outcome State Fault Refusal := .next (s.preempt ch.val)

/-- A transfer becomes urgent: it serves bound F, and its request had its first reply 200 ticks ago (R284). -/
def State.makeUrgent (s : State) (f : Flow) : Flow :=
  let due := f.desc.elim false (fun id => (s.desc id).elim false (fun d =>
    d.first.elim false (fun t => t + 200 ≤ s.tick)))
  if f.boundF && f.urgent.isNone && due then { f with urgent := some s.tick } else f

/-- TRANSFER_URGENT (R284). -/
def execTransferUrgent (ch : Fin 16) (requester : Nat) (s : State) : Host.Outcome State Fault Refusal :=
  .next (s.modChan ch.val (·.modReq requester (fun q => { q with flows := q.flows.map s.makeUrgent })))

/-- CINCH_TRANSFER_END (R286): the rest of the transfer has moved, L returns to 0 and the bus is free. -/
def Channel.finish (c : Channel) : Channel :=
  match c.owner with
  | none => c
  | some h =>
    let left := ((c.req h).flows.head?).elim 0 Flow.left
    let c' := c.modReq h (fun q => let q := q.move left; { q with l := 0, flows := q.flows.drop 1 })
    { c' with owner := none, beats := min 25 (c.beats + left) }

/-- CINCH_TRANSFER_END. -/
def execCinchTransferEnd (ch : Fin 16) (s : State) : Host.Outcome State Fault Refusal :=
  .next (s.modChan ch.val Channel.finish)

/-- The starvation flag of a requester (CIN_STARVE_T, CIN_STARVE_S). -/
def Cinch.starved (x : Cinch) (r : Nat) : Bool := if r < 32 then x.starveT.getLsbD r else x.starveS.getLsbD (r - 32)

/-- The flag set. -/
def Cinch.flagStarved (x : Cinch) (r : Nat) : Cinch :=
  if r < 32 then { x with starveT := x.starveT ||| BitVec.ofNat 32 (2 ^ r) }
  else { x with starveS := x.starveS ||| BitVec.ofNat 3 (2 ^ (r - 32)) }

/-- CINCH_STARVED (R289): the flag, the count, and the event once until the flag is cleared. -/
def execCinchStarved (ch : Fin 16) (requester : Nat) (s : State) : Host.Outcome State Fault Refusal :=
  let q := (s.chan ch.val).req requester
  if q.flows.any (·.urgent.isNone) && !s.masked requester && s.cinch.starveTicks ≤ q.starve then
    let s' := ({ s with cinch := s.cinch.flagStarved requester }).bump 0x00040220
    .next (if s.cinch.starved requester then s' else s'.raise 0x8202 requester ch.val 0)
  else .next s

/-! ### The core clock's cap -/

/-- The highest clock step in force: PWR_VF_CAP, the power limit's cap, and 1.2 GHz under the thermal cap (R323, R327,
R428). -/
def Power.stepCap (p : Power) : Nat := if p.clockCap then 12 else min p.vfCap p.powerCap

end Sys2Proof.Machine
end

