-- ==== Sys2Proof/Machine/Skiver.lean ====
section
/-! DEFINITION. The value compressor, the skiver (8.6): chunks, the decimal recogniser, chunk frames, and the size of a stored
value (R313 to R315). -/
namespace Sys2Proof.Machine
open Sys2Proof

/-! ### The decimal recogniser (R314) -/

/-- A nibble that ends a decimal run. -/
def isSignNibble (n : Nat) : Bool := n == 0xC || n == 0xD || n == 0xF

/-- Both nibbles of a byte are decimal digits. -/
def isDigitPair (b : Byte) : Bool := b.toNat / 16 ≤ 9 && b.toNat % 16 ≤ 9

/-- The last byte of a packed run: a digit, then a sign nibble. -/
def isPackedEnd (b : Byte) : Bool := b.toNat / 16 ≤ 9 && isSignNibble (b.toNat % 16)

/-- A byte of 0xF0 to 0xF9. -/
def isZonedDigit (b : Byte) : Bool := b.toNat / 16 == 0xF && b.toNat % 16 ≤ 9

/-- A digit under a sign zone. -/
def isZonedEnd (b : Byte) : Bool := isSignNibble (b.toNat / 16) && b.toNat % 16 ≤ 9

/-- The length of the packed run that begins a string, 0 where none of at least 4 bytes does. -/
def packedRun (b : Bytes) : Nat :=
  let n := (b.takeWhile isDigitPair).length
  if 3 ≤ n && ((b.drop n).head?).elim false isPackedEnd then n + 1 else 0

/-- The length of the zoned run that begins a string, 0 where none of at least 4 bytes does. -/
def zonedRun (b : Bytes) : Nat :=
  let n := (b.takeWhile isZonedDigit).length
  if 3 ≤ n && ((b.drop n).head?).elim false isZonedEnd then n + 1 else if 4 ≤ n then n else 0

/-- A packed run as a symbol. -/
def packedSymbol (b : Bytes) : Symbol :=
  .packed (2 * b.length - 1) (ofDigits (nibbles b).dropLast) ((nibbles b).getLastD 0)

/-- A zoned run as a symbol. -/
def zonedSymbol (b : Bytes) : Symbol :=
  .zoned b.length (ofDigits (b.map (fun x => x.toNat % 16))) ((b.getLastD 0#8).toNat / 16)

/-- A string with its decimal runs replaced, from the front (R314). `fuel` bounds the symbols. -/
def recognise : (fuel : Nat) → Bytes → List Symbol
  | 0, b => b.map .byte
  | _ + 1, [] => []
  | fuel + 1, x :: rest =>
    let p := packedRun (x :: rest)
    let z := zonedRun (x :: rest)
    if 0 < p then packedSymbol ((x :: rest).take p) :: recognise fuel ((x :: rest).drop p)
    else if 0 < z then zonedSymbol ((x :: rest).take z) :: recognise fuel ((x :: rest).drop z)
    else .byte x :: recognise fuel rest

/-- The zones of a zoned run put before its digits: 0xF, and the sign in the last. -/
def zonedBytes (ds : List Nat) (sign : Nat) : Bytes :=
  ds.dropLast.map (fun d => BitVec.ofNat 8 (0xF0 + d)) ++ [BitVec.ofNat 8 (sign * 16 + ds.getLastD 0)]

/-- The bytes of a symbol. -/
def Symbol.restore : Symbol → Bytes
  | .byte b => [b]
  | .packed n v sign => ofNibbles (toDigits n v ++ [sign])
  | .zoned n v sign => zonedBytes (toDigits n v) sign

/-- The bytes that symbols stand for. -/
def restore (l : List Symbol) : Bytes := l.flatMap Symbol.restore

/-! ### Chunk frames (R313, R315) -/

/-- The chunks of a value: 4,096 bytes each, the last one shorter; one chunk where it is empty (R313, 8.6.1). -/
def chunksOf (value : Bytes) : List Bytes := chunk 4096 (max 1 (ceilDiv value.length 4096)) value

/-- Class 2 leaves the LZ stage out (R313). -/
def usesLz (cls : Nat) : Bool := cls != 2

/-- A chunk as the coding stages take it: class 1 runs the recogniser first (R313). -/
def symbols (cls : Nat) (plain : Bytes) : List Symbol :=
  if cls = 1 then recognise plain.length plain else plain.map .byte

/-- A compressed body fails the checking decoder: its plaintext has another CRC (R315). -/
def checkFails (cls : Nat) (plain : Bytes) : Bool :=
  crc32c (restore (Config.expand (usesLz cls) (Config.squeeze (usesLz cls) (symbols cls plain)))) != crc32c plain

/-- A chunk's method and body: raw where the compressed body is not shorter or fails its check (R315). -/
def chunkBody (cls : Nat) (plain : Bytes) : Option Nat × Bytes :=
  let body := Config.squeeze (usesLz cls) (symbols cls plain)
  if body.length < plain.length && !checkFails cls plain then (some cls, body) else (none, plain)

/-- A chunk frame (R315): stored length, method, a reserved byte, the CRC-32C of the plaintext, the body. -/
def chunkFrame (cls : Nat) (plain : Bytes) : Bytes :=
  let b := chunkBody cls plain
  toBe 2 b.2.length ++ [Config.skiverMethod b.1, 0#8] ++ toBe 4 (crc32c plain) ++ b.2

/-- A value's chunk frames in order. -/
def frames (cls : Nat) (value : Bytes) : Bytes := (chunksOf value).flatMap (chunkFrame cls)

/-- Chunks of a value whose compressed body is shorter and fails its check (SKV_FALLBACK). -/
def fallbacks (cls : Nat) (value : Bytes) : Nat :=
  ((chunksOf value).filter (fun p =>
    (Config.squeeze (usesLz cls) (symbols cls p)).length < p.length && checkFails cls p)).length

/-- Bytes that a value takes after the skiver: each chunk has an 8-byte head, and a chunk that does not shrink is stored raw
(R315). -/
def storedBytes (cls : Nat) (value : Bytes) : Nat :=
  (chunksOf value).foldl (fun acc p => acc + 8 + (chunkBody cls p).2.length) 0

end Sys2Proof.Machine
end

