-- ==== Sys2Proof/Machine/Order.lean ====
section
/-! DEFINITION. Writes at their place in the order: what a write decides (R36, R52, R113, R145), how values are stored
(R375 to R377) and committed (R32, R42, R146), the running digests (R178, R223), and the local order. -/
namespace Sys2Proof.Machine
open Sys2Proof

/-! ### Stored values -/

/-- A commit record's bytes: header, valid word, and per value its key, nonce, tag and chunk frames in whole words
(R298; assumption log 7). -/
def State.recordBytes (s : State) (writes : List (Bytes × Option Bytes)) : Nat :=
  writes.foldl (fun acc w =>
    acc + 8 * ceilDiv (w.1.length + w.2.elim 0 (fun v => storedBytes (s.keyClass w.1) v + 28)) 8) 16

/-- The nonce of an invocation of a tenant's key generation (Table 10.4). -/
def State.gcmNonce (s : State) (t gen counter : Nat) : Bytes :=
  toBe 4 s.ident.instanceId ++ [BitVec.ofNat 8 t, BitVec.ofNat 8 (gen % 16)] ++ toBe 6 counter

/-- The additional authenticated data of a value (R375). -/
def gcmAad (t : Nat) (key : Bytes) (version : Nat) : Bytes :=
  [BitVec.ofNat 8 t, BitVec.ofNat 8 key.length] ++ key ++ toBe 8 version

/-- A record's chunk frames encrypted under the tenant's write key with its next invocation (R375); without a key there is no stored
form. -/
def State.sealRec (s : State) (t : Nat) (r : Rec) : Rec :=
  match s.writeGen t with
  | none => { r with gen := 0, nonce := 0, sealed := [] }
  | some k =>
    { r with
      gen := k.gen, nonce := k.nonce,
      sealed := gcmSeal k.key (s.gcmNonce t k.gen k.nonce) (gcmAad t r.key r.version) r.frames }

/-- One invocation of a tenant's write key (R376, R377): the counter advances, the ceiling is raised before a value at
or above it is used, and KEY_LOW is raised once when 2 ^ 47 has been used. -/
def State.encryptOnce (s : State) (t : Nat) : State :=
  match s.writeGen t with
  | none => s
  | some k =>
    let v := k.nonce
    let k' := { k with
      nonce := v + 1
      ceiling := if k.ceiling ≤ v then (v / 2 ^ 20 + 1) * 2 ^ 20 else k.ceiling
      lowSent := k.lowSent || v == 2 ^ 47 }
    let s : State := { s with secure := { s.secure with
      tack := s.secure.tack.map (fun x : KeySlot => if x.slot = k.slot then k' else x) } }
    let s := s.bumpTkp t 0x400
    if v = 2 ^ 47 && !k.lowSent then s.raise 0x8203 t k.gen 0 else s

/-- The header of an account, or not (R143). -/
def isAccountValue (v : Bytes) : Bool := 64 ≤ v.length && byteAt v 0 == 1

/-- A written account keeps the last sequence that the key held before the write, 0 where it held none (R145). -/
def keepLastSeq (old : Option Bytes) (v : Bytes) : Bytes :=
  if isAccountValue v then
    let last := match old with
      | some o => if isAccountValue o then slice o 8 8 else List.replicate 8 0#8
      | none => List.replicate 8 0#8
    v.take 8 ++ last ++ v.drop 16
  else v

/-- A record put under a tenant's write key, which is used once (R375, R376). -/
def State.sealUp (s : State) (t : Nat) (r : Rec) : State := (s.encryptOnce t).modTenant t (·.put (s.sealRec t r))

/-- A value under a version as the skiver leaves it, by its key's compression class (R313). -/
def State.compressed (s : State) (key value : Bytes) (version : Nat) : Rec :=
  { key := key, value := value, version := version, gen := 0, nonce := 0, frames := frames (s.keyClass key) value,
    sealed := [], lost := .no, cached := true }

/-- The values committed over the last 125,000 ticks, with one more (MED_SKV_RATIO). -/
def Media.noteStored (x : Media) (tick stored plain : Nat) : Media :=
  { x with recent := x.recent.filter (fun r => tick < r.1 + 125000) ++ [(tick, stored, plain)] }

/-- A value written under a sequence number: compressed, encrypted under the write key (unless `recs` holds it encrypted already),
cached and counted in the lifetime record (R32, R315, R375, Table 8.8). -/
def State.storeValue (s : State) (t : Nat) (key value : Bytes) (seq : Nat) (recs : List Rec) : State :=
  let s := match recs.find? (fun r => r.key == key && r.value == value && r.version == seq) with
    | some r => s.modTenant t (·.put r)
    | none => s.sealUp t (s.compressed key value seq)
  let s := s.bumpBy 0x00060188 (fallbacks (s.keyClass key) value)
  { s with media := { s.media.noteStored s.tick (storedBytes (s.keyClass key) value) value.length with
      life := s.media.life.modify 0 (· + value.length) } }

/-- One record write of an entry: a value put, or a key removed. -/
def State.applyWrite (s : State) (t seq : Nat) (recs : List Rec) (w : Bytes × Option Bytes) : State :=
  match w.2 with
  | some v => s.storeValue t w.1 v seq recs
  | none => s.modTenant t (fun x => x.erase w.1)

/-- The uncompressed value bytes of an entry's writes, metered by the member whose host sent the request (R182). -/
def State.meterWrites (s : State) (e : Entry) (writes : List (Bytes × Option Bytes)) : State :=
  if e.desc.isSome then
    let n := writes.foldl (fun acc w => acc + w.2.elim 0 List.length) 0
    s.modTenant e.tenant (fun x => { x with period := { x.period with bytesWritten := x.period.bytesWritten + n } })
  else s

/-! ### Sequence numbers and digests -/

/-- The next sequence number of an ordering authority: the drive's own for set 0, else the set's (R33, R202). -/
def State.nextSeqOf (s : State) (set : Nat) : Nat :=
  if set = 0 then s.ledger.nextSeq else (s.span.set set).elim 0 (·.nextSeq)

/-- A sequence number is issued. -/
def State.issueSeq (s : State) (set : Nat) : State :=
  if set = 0 then { s with ledger := { s.ledger with nextSeq := s.ledger.nextSeq + 1 } }
  else { s with span := s.span.modSet set (fun y => { y with nextSeq := y.nextSeq + 1 }) }

/-- The drive's own next sequence number raised to lie above the versions of a range that passes to it (R34). What waiting entries
had decided under a lower number is decided again. -/
def Ledger.raiseSeq (x : Ledger) (n : Nat) : Ledger :=
  if x.nextSeq < n then
    { x with nextSeq := n, tree := none, order := x.order.map (fun e => { e with effects := none }) }
  else x

/-- The next sequence number of an ordering authority raised to `n` at least (R34). -/
def State.raiseSeq (s : State) (set n : Nat) : State :=
  if set = 0 then { s with ledger := s.ledger.raiseSeq n }
  else { s with span := s.span.modSet set (fun y => { y with nextSeq := max y.nextSeq n }) }

/-- Every authority that a tenant's keys now lie under has its next sequence number above their versions (R34). -/
def State.raiseAbove (s : State) (t : Nat) : State :=
  (s.tenant t).recs.foldl (fun s r => s.raiseSeq (s.keySet r.key) (r.version + 1)) s

/-- The kind of an entry as Table 5.4 numbers it. -/
def EntryKind.code : EntryKind → Nat
  | .write => 1
  | .post => 2
  | .program => 3
  | .closeDay => 4

/-- An entry's bytes as a batch carries them (Table 5.4); `prints` holds the key fingerprints of the read set, none for
a local entry (R178). -/
def Entry.bytes (e : Entry) (prints : List Nat) : Bytes :=
  let expect := e.expect.orElse (fun _ => e.heldVer)
  [BitVec.ofNat 8 e.kind.code, BitVec.ofNat 8 e.set, BitVec.ofNat 8 e.tenant, BitVec.ofNat 8 e.op]
    ++ toBe 4 (e.wireLen prints.length) ++ toBe 8 e.param.toNat ++ toBe 2 e.key.length
    ++ [BitVec.ofNat 8 prints.length, BitVec.ofNat 8 (flagAt expect.isSome 0)] ++ toBe 4 e.value.length
    ++ toBe 8 (expect.getD 0) ++ e.key ++ e.value ++ (prints.map (toBe 8)).flatten

/-- A running digest chained over one entry (R223). -/
def chain (old : Bytes) (index seq : Nat) (st : Status) (entry : Bytes) : Bytes :=
  sha384 (old ++ toBe 8 index ++ toBe 8 seq ++ toBe 2 st.code ++ sha384 entry)

/-- An outcome added to the log of a resynchronisation of its set (R228 step 3). -/
def Span.logged (x : Span) (e : Entry) (index seq : Nat) (st : Status) : Span :=
  let item : LogItem := { index := index, seq := seq, status := st, bytes := e.bytes e.readSet, keys := [] }
  { x with resync := x.resync.map (fun r => if r.set = e.set then { r with log := r.log ++ [item] } else r) }

/-- An entry's outcome chained into the digest of its ordering authority: set 0 by the count of locally ordered entries
(R178), another set by the order index (R223). -/
def State.chainEntry (s : State) (e : Entry) (index seq : Nat) (st : Status) : State :=
  if e.set = 0 then
    { s with ledger := { s.ledger with
      digest := chain s.ledger.digest s.ledger.digestCount seq st (e.bytes [])
      digestCount := s.ledger.digestCount + 1 } }
  else
    { s with span := (s.span.logged e index seq st).modSet e.set (fun y => { y with
      digest := chain y.digest index seq st (e.bytes e.readSet)
      applied := index + 1 }) }

/-! ### What a plain write decides at its place (R36, R52, R113, R376) -/

/-- The quota that a tenant is held to: at WEAR_END its present logical bytes (R36, R329). -/
def State.quotaOf (s : State) (t : Nat) : Nat :=
  if s.media.wearEnd then (s.tenant t).logical else (s.tenant t).profile.quota

/-- A change of logical bytes that R36 refuses: it raises them above the quota. -/
def State.overQuota (s : State) (t : Nat) (after : Nat) : Bool :=
  (s.tenant t).logical < after && s.quotaOf t < after

/-- A key shortage for a number of values (R376, R378): the status parameter, 1 without a current key. -/
def State.keyShort (s : State) (t values : Nat) : Option Nat :=
  match s.secure.genIn t .current with
  | none => some 1
  | some _ =>
    match s.writeGen t with
    | none => some 1
    | some k => if k.left = 0 || k.left < values then some 0 else none

/-- The value that a plain write leaves (`none` a deletion), or the refusal that it earns, judged against the record
that its key holds: versions first, then the offset and the length of a PATCH, and last what it needs of the stored value (R52,
R109, R113; assumption log 102). -/
def writeOutcome (e : Entry) (cur : Option Rec) : Except Status (Option Bytes) :=
  let ver := cur.elim 0 (·.version)
  let held := e.heldVer.all (· == ver)
  let expected := e.expect.all (· == ver)
  if e.op = 0x0C then
    if cur.isNone then .error .notFound
    else if held && expected then .ok none else .error .versionMismatch
  else if e.op = 0x0B then
    match cur with
    | none => .error .notFound
    | some r =>
      let off := e.param.toNat % 2 ^ 21
      let len := max r.value.length (off + e.value.length)
      if !(held && expected) then .error .versionMismatch
      else if r.value.length < off then .error .range
      else if (if e.set = 0 then 1048576 else 4096) < len then .error .length
      else if r.lost ≠ .no then .error .dataLost
      else .ok (some (r.value.take off ++ e.value ++ r.value.drop (off + e.value.length)))
  else if e.op = 0x09 then
    if held && ver = e.param.toNat then .ok (some e.value) else .error .versionMismatch
  else if held then .ok (some e.value) else .error .versionMismatch

/-- The effects of a plain write at its place, or its refusal with the parameter (R36, R145, R376). -/
def State.decideWrite (s : State) (e : Entry) : Except (Status × Nat) Effects :=
  let t := s.tenant e.tenant
  let cur := t.find e.key
  match writeOutcome e cur with
  | .error st => .error (st, 0)
  | .ok none =>
    match (if e.set = 0 then s.keyShort e.tenant 0 else none) with
    | some p => .error (.keyExhausted, p)
    | none => .ok { writes := [(e.key, none)], result := [], legs := [] }
  | .ok (some v) =>
    let v := keepLastSeq (cur.map (·.value)) v
    let after := t.logical - cur.elim 0 Rec.size + e.key.length + v.length
    if s.overQuota e.tenant after then .error (.quotaExceeded, 0)
    else match (if e.set = 0 then s.keyShort e.tenant 1 else none) with
      | some p => .error (.keyExhausted, p)
      | none => .ok { writes := [(e.key, some v)], result := [], legs := [] }

/-! ### The end of an entry -/

/-- The requester's reply to an entry's end: its first reply or completion. An entry with no descriptor is another
member's, or was squashed. -/
def State.replyEntry (s : State) (e : Entry) (st : Status) (param : Nat) (key value : Bytes) : State :=
  match e.desc with
  | some id => s.answer id st param [] key value
  | none => s

/-- An entry refused at its place: chained with sequence number 0, answered, nothing applied (R178, R202). -/
def State.refuseEntry (s : State) (e : Entry) (index : Nat) (st : Status) (param : Nat) (key : Bytes) : State :=
  (s.chainEntry e index 0 st).replyEntry e st param key []

/-! ### The commit journal (R297 to R299) -/

/-- The commit area of a copy in bytes. -/
def commitArea : Nat := 240 * 2 ^ 20

/-- The valid word of a commit record (R298). -/
def JRec.validWord (r : JRec) : Nat := r.number * 2 ^ 16 + 0x4A52

/-- The values that a commit record carries, as the skiver and the cipher engine produced them (R298): for each write the key and,
where it leaves a value, nonce, ciphertext and tag, in whole words. -/
def State.recordPayload (s : State) (t : Nat) (keys : List Bytes) (recs : List Rec) : Bytes :=
  keys.flatMap (fun k =>
    let b := k ++ (recs.find? (fun r => r.key == k)).elim [] (fun r => s.gcmNonce t r.gen r.nonce ++ r.sealed)
    padTo (8 * ceilDiv b.length 8) b)

/-- The place of the next commit record in the circular commit area: behind the newest that stands. -/
def Ledger.nextOffset (x : Ledger) : Nat :=
  (x.journal.getLast?).elim x.freePtr (fun r => (r.offset + r.size) % commitArea)

/-- Destage of a commit record queued as background work of its tenant (R279, R299), on the channel of its first key. -/
def State.queueDestage (s : State) (r : JRec) : State :=
  s.queueWork (Config.channelOf r.tenant (r.keys.headD []) r.number) r.tenant r.size (some r.number)

/-- A commit record that carries no value and takes no sequence number: of a removal (R32, R130), or of a change of the control area
that one record makes (R416). -/
def State.bareRecord (s : State) (t : Nat) : JRec :=
  { number := 0, offset := 0, kind := .write, payload := [], tenant := t, set := 0, size := s.recordBytes [], seq := 0,
    tick := s.tick, wall := s.ledger.wall, keys := [], legs := [], valueDate := 0, day := (s.tenant t).day, hostRef := 0 }

/-- A commit record completed in both copies behind the newest (R298), its destage queued (R299). `recs` are the records that its
entry wrote. -/
def State.addRecord (s : State) (r : JRec) (recs : List Rec) : State :=
  let r := { r with
    number := s.ledger.nextRecord, offset := s.ledger.nextOffset, payload := s.recordPayload r.tenant r.keys recs }
  ({ s with ledger := { s.ledger with
    journal := s.ledger.journal ++ [r], nextRecord := s.ledger.nextRecord + 1 } }).queueDestage r

/-- The commit record of an entry's effects under a sequence number (R152, R298). -/
def State.recordOf (s : State) (e : Entry) (fx : Effects) (seq : Nat) : JRec :=
  let day := (s.tenant e.tenant).day
  { number := 0, offset := 0, kind := e.kind, payload := [], tenant := e.tenant, set := e.set,
    size := s.recordBytes fx.writes, seq := seq,
    tick := e.tick, wall := e.wall, keys := fx.writes.map (·.1), legs := fx.legs,
    valueDate := if e.kind = .post && u32 e.value 4 ≠ 0 then u32 e.value 4 else day, day := day,
    hostRef := if e.kind = .post then u64 e.value 8 else 0 }

/-- The commit of an entry's effects (R32, R35, R42, R159): one sequence number, the writes in order, the journal
record unless one is `noted` already (R203), the digest, and visibility in the same step. A tree that wrote nothing takes no
number (R119). The reply is DONE with the number. -/
def State.installEntry (s : State) (e : Entry) (index : Nat) (fx : Effects) (noted : Bool) (recs : List Rec) : State :=
  let wrote := !fx.writes.isEmpty
  let seq := if wrote then s.nextSeqOf e.set else 0
  let s := if wrote then s.issueSeq e.set else s
  let s := (fx.writes.foldl (fun s w => s.applyWrite e.tenant seq recs w) s).meterWrites e fx.writes
  let s := if wrote && !noted then s.addRecord (s.recordOf e fx seq) (s.tenant e.tenant).recs else s
  let s := if e.kind == .write || !wrote then s else s.bump 0x000C0020
  (s.chainEntry e index seq .done).replyEntry e .done seq [] fx.result

/-- The commit of an entry that has not been journalled before. -/
def State.commitEntry (s : State) (e : Entry) (index : Nat) (fx : Effects) : State := s.installEntry e index fx false []

/-! ### The journal's room (R297, R300) -/

/-- Commit-area bytes in use. -/
def Ledger.used (x : Ledger) : Nat := x.journal.foldl (fun acc r => acc + r.size) 0

/-- Commit-area bytes that admitted writes have reserved (R300): those of the local order, and those admitted to this member's
batches that have not been journalled. -/
def State.reserved (s : State) : Nat := (s.ledger.order ++ s.span.unsent).foldl (fun acc e => acc + e.room) 0

/-- The commit area in use, in percent (MED_STAT). -/
def Ledger.percent (x : Ledger) : Nat := x.used * 100 / commitArea

/-- JOURNAL_HIGH follows the commit area at 75 % (R300); the event is raised when it is reached. -/
def State.watchJournal (s : State) : State :=
  let high := 75 ≤ s.ledger.percent
  let s' := { s with ledger := { s.ledger with journalHigh := high } }
  if high && !s.ledger.journalHigh then s'.raise 0x8401 s.ledger.percent 0 0 else s'

/-! ### The local order (R33, R43) -/

/-- The close digest (R178): SHA-384 over an item of 49 bytes for each set that the tenant's rules name. -/
def State.closeDigest (s : State) (t : Nat) : Bytes :=
  let sets := (List.range 16).filter (s.tenantSets t).contains
  sha384 (sets.map (fun k => [BitVec.ofNat 8 k] ++
    (if k = 0 then s.ledger.digest else (s.span.set k).elim (List.replicate 48 0#8) (·.digest)))).flatten

/-- A CLOSE_DAY at its place (R176, R177, R178): the day moves, and close time, tick and sequence number are recorded. A day
that would pass 2 ^ 32 - 1 has no stated value (R177): it is free (assumption log 3).
The close digest is taken as the running digests stand at that place, before the close's own entry is chained
(assumption log 21). -/
def State.applyClose (s : State) (e : Entry) (index : Nat) : State :=
  let t := s.tenant e.tenant
  if t.day ≠ e.param.toNat % 2 ^ 32 then
    (s.chainEntry e index 0 .dayMismatch).replyEntry e .dayMismatch t.day [] []
  else
    let next := if t.day + 1 < 2 ^ 32 then t.day + 1 else Config.openValue s.free 1 % 2 ^ 32
    let s := { s with free := if t.day + 1 < 2 ^ 32 then s.free else s.free + 1 }
    let s := s.modTenant e.tenant (fun t => { t with
      day := next, closeTime := e.wall, closeShown := e.wall, closeTick := s.tick, closeSeq := s.nextSeqOf e.set - 1,
      closedOnce := true })
    let digest := s.closeDigest e.tenant
    (s.chainEntry e index 0 .done).replyEntry e .done (s.tenant e.tenant).day [] digest

/-- The front of the local order while it needs no engine and no journal record: a write refused at its place, or a
close. `fuel` bounds the entries looked at. -/
def State.settle : Nat → State → State
  | 0, s => s
  | fuel + 1, s =>
    match s.ledger.order with
    | [] => s
    | e :: rest =>
      let pop (s : State) : State := { s with ledger := { s.ledger with order := rest } }
      match e.kind with
      | .closeDay =>
        let e := { e with tick := s.tick, wall := s.ledger.wall }
        State.settle fuel (pop (s.applyClose e s.ledger.digestCount))
      | .write =>
        if e.unread.isEmpty then
          match s.decideWrite e with
          | .error (st, param) => State.settle fuel (pop (s.refuseEntry e s.ledger.digestCount st param []))
          | .ok _ => s
        else s
      | _ => s

/-- The front of the order settled. -/
def State.settled (s : State) : State := s.settle s.ledger.order.length

/-- An entry put in its place (R43): behind every entry whose request finished parsing no later, and behind one whose effects
have been decided. -/
def insertEntry (e : Entry) : List Entry → List Entry
  | [] => [e]
  | x :: rest => if e.stamp < x.stamp && x.effects.isNone then e :: x :: rest else x :: insertEntry e rest

/-- The order with an entry put in its place. The front stays in front while the engine runs its tree. -/
def Ledger.enter (x : Ledger) (e : Entry) : Ledger :=
  let held := if x.tree.isSome then 1 else 0
  { x with order := x.order.take held ++ insertEntry e (x.order.drop held) }

/-- An entry put in its place in the local order, its request waiting in the phase `ordered` (R43). -/
def State.enqueueLocal (s : State) (e : Entry) : State := ({ s with ledger := s.ledger.enter e }).settled

/-- The front entry of the local order removed, and what follows it settled. -/
def State.popOrder (s : State) : State :=
  ({ s with ledger := { s.ledger with order := s.ledger.order.drop 1 } }).settled

/-- Steps admitted for local trees and not yet executed (R167, R168). -/
def State.localSteps (s : State) : Nat := s.ledger.order.foldl (fun acc e => acc + e.unexecuted) 0

/-- Steps of the entries of a batch that this member executes and has not executed yet: those of sets that it holds and has not
applied (assumption log 117). -/
def Span.batchSteps (x : Span) (b : Batch) : Nat :=
  b.entries.foldl (fun acc e =>
    if x.belongs e.ent.set && !e.done then acc + e.ent.cost else acc) 0

/-- Steps admitted and not yet executed (LCK_ENG_QUEUE): local and span together, those of batches on the ring among them. -/
def State.engineSteps (s : State) : Nat :=
  s.localSteps + stepsOf s.span.unsent +
    s.span.batches.foldl (fun acc b => acc + s.span.batchSteps b) 0

/-- The engine's peak is kept (LCK_ENG_PEAK). -/
def State.notePeak (s : State) : State :=
  { s with ledger := { s.ledger with peak := max s.ledger.peak s.engineSteps } }

end Sys2Proof.Machine
end

