-- ==== Sys2Proof/Machine/Records.lean ====
section
/-! DEFINITION. Reads (3.3), browse (3.5), VERIFY and plain writes (3.4): what a request meets before its record, how a
record is delivered, and how a write is admitted to the order. -/
namespace Sys2Proof.Machine
open Sys2Proof

/-! ### What a read meets (R38, R46, R201, R224) -/

/-- The shadow of the rule table is being rebuilt, and lookups stop (R360). -/
def State.rebuilding (s : State) : Bool := s.tick < s.awl.rebuildUntil

/-- A lookup in the rule table, counted (AWL_LOOKUP). -/
def State.looked (s : State) : State := s.bump 0x00050100

/-- What the replication set of a key makes of a read: its status and parameter, `none` where the read goes on. -/
def State.setGate (s : State) (set : Nat) (floor : Option Nat) : Option (Status × Nat) :=
  if set = 0 then none
  else if !s.span.belongs set then some (.range, cfgSet s.span.record set)
  else if floor.isSome && s.span.apart then some (.outsideSpan, 0)
  else if s.span.fencedAt set then some (.fenced, 0)
  else none

/-- A member that is OUTSIDE or rejoining serves the replica under the stale flag (R47). -/
def State.staleFlags (s : State) (key : Bytes) : Bytes := replyFlags (s.span.apart && s.keySet key != 0) false

/-- What a read of a key meets before its record. -/
def State.readGate (s : State) (fn : Nat) (key : Bytes) (floor : Option Nat) : Option (Status × Nat) :=
  if !s.owns fn key then some (.range, 0) else s.setGate (s.keySet key) floor

/-- A read waits for its version floor (R46). -/
def State.floorWaits (s : State) (key : Bytes) (floor : Option Nat) : Bool :=
  let set := s.keySet key
  set != 0 && floor.elim false (fun n => s.span.visibleOf set < n)

/-- A reply to a read of a replica on a member that is apart from the span carries the stale flag (R47). -/
def State.staleFor (s : State) (key : Bytes) : Bool := s.span.apart && s.keySet key != 0

/-! ### Delivering a record (R110, R111, R116, R124) -/

/-- The value of a record is read and its reply formed. -/
def State.deliverValue (s : State) (d : Desc) (r : Rec) : State :=
  s.answer d.id .done r.version (s.staleFlags r.key) (if d.op = 0x01 then [] else r.key) r.value

/-- A hold granted on a record that a GET_HOLD has read (R48, R49, R52, R53). A reply that does not fit grants none (R97). -/
def State.deliverHold (s : State) (d : Desc) (r : Rec) (floored : Bool) : State :=
  let t := s.tenant d.fn
  match t.blockingHold r.key d.arrival s.tick with
  | some h => s.refuse d.id .keyHeld (h.remaining d.arrival * 2 ^ 32)
  | none =>
    let dur := if d.bitsOf 31 0 = 0 then 1250 else d.bitsOf 31 0
    let opts := replyFlags (s.staleFor r.key) false ++ tlv 0x49 (toBe 4 t.nextHold)
    if replyFits (s.port d.port).txMtu d (padOpts opts) [] r.value then
      let h : Hold :=
        { id := t.nextHold, key := r.key, version := r.version, start := if floored then s.tick else d.arrival,
          dur := dur }
      (s.modTenant d.fn (fun t => { t with holds := t.holds ++ [h], nextHold := (t.nextHold + 1) % 2 ^ 32 })).answer
        d.id .done r.version opts [] r.value
    else s.refuse d.id .length 0

/-- The input of VERIFY's CMAC (R124). -/
def verifyInput (r : Rec) : Bytes := toBe 8 r.version ++ [BitVec.ofNat 8 r.key.length] ++ r.key ++ r.value

/-- VERIFY of a readable value: 0 where the tags match, 1 where they differ (R124). A tenant without a
message-authentication key has no stated result: the free value decides (assumption log 20). -/
def State.deliverVerify (s : State) (d : Desc) (r : Rec) : State :=
  let flags := s.staleFlags r.key
  match s.macKey d.fn with
  | some k => s.answer d.id .done (if cmac k (verifyInput r) = d.value then 0 else 1) flags [] []
  | none => ({ s with free := s.free + 1 }).answer d.id .done (Config.openValue s.free 0 % 2) flags [] []

/-- A readable record delivered to the request that asked for it. -/
def State.deliver (s : State) (d : Desc) (r : Rec) (floored : Bool) : State :=
  if d.op = 0x03 then s.deliverHold d r floored
  else if d.op = 0x40 then s.deliverVerify d r
  else s.deliverValue d r

/-- A record that cannot be read (R111, R116, R124): no value byte is sent, and a step names the key. -/
def State.deliverLost (s : State) (d : Desc) (key : Bytes) (lost : Lost) : State :=
  let st := if lost == .integrity then Status.integrityFail else .uncorrectable
  if d.op = 0x40 then s.answer d.id .done 2 (s.staleFlags key) [] []
  else if d.op = 0x11 || d.op = 0x12 then s.answer d.id st 0 (s.staleFlags key) key []
  else s.answer d.id st 0 (s.staleFlags key) [] []

/-- A flash read serves bound F: a read, GET_HOLD, browse step or VERIFY (R284). -/
def Phase.boundF : Phase → Bool
  | .reading _ => true
  | _ => false

/-- The transfers that read a record (R280); a scan's carry the plaintext bytes that its search lane takes (R357). -/
def readFlows (id fn : Nat) (r : Rec) (ph : Phase) : List Flow :=
  let n := r.frames.length + 28
  (Flow.parts (some id) fn n ph.boundF).map (fun f =>
    { f with plain := if ph = .scanning then ceilDiv (r.value.length * f.bytes) (max 512 n) else 0 })

/-- A flash read begins: the request waits as `ph` for the record as it stands, a unit holds a reference, and the transfers
join the cinch (R45, R276, R279). -/
def State.beginRead (s : State) (id fn : Nat) (r : Rec) (ph : Phase) : State :=
  ((s.accept id ph).modDesc id (fun d => { d with refs := d.refs + 1, fetch := some r })).queueFlows
    (Config.channelOf fn r.key r.version) fn (readFlows id fn r ph)

/-- The record under a key is delivered from the cache, refused as lost, or read from flash (R110). -/
def State.readRecord (s : State) (d : Desc) (r : Rec) (floored : Bool) : State :=
  if r.lost ≠ .no then s.deliverLost d r.key r.lost
  else if r.cached then s.deliver d r floored
  else s.beginRead d.id d.fn r (.reading floored)

/-! ### Holds in use (R50, R51) -/

/-- Holds that count against the bound of R50: valid ones, and those that reads under way may still grant. -/
def State.holdsInUse (s : State) (fn self : Nat) : Nat :=
  ((s.tenant fn).holds.filter (·.validAt s.tick)).length +
    (s.descs.filter (fun d => d.fn == fn && d.op == 0x03 && d.id != self && (match d.phase with
      | .reading _ | .floorWait => true
      | _ => false))).length

/-- Ticks until the tenant's earliest hold expires (R50). -/
def State.holdRetry (s : State) (fn : Nat) : Nat :=
  match ((s.tenant fn).holds.filter (·.validAt s.tick)).map (·.remaining s.tick) with
  | [] => 1
  | x :: xs => xs.foldl min x

/-! ### Serving a read -/

/-- What a GET_HOLD meets before its record (R49 to R51), judged in the tick of its last byte: KEY_HELD, or the bound of R50 as a
BACKPRESSURE; `none` where it goes on. A GET_HOLD that waits for its floor has passed the bound, and counts against it. -/
def State.holdGate (s : State) (d : Desc) (floored : Bool) : Option State :=
  match (s.tenant d.fn).blockingHold d.key d.arrival s.tick with
  | some h => some (s.refuse d.id .keyHeld (h.remaining d.arrival * 2 ^ 32))
  | none =>
    if !floored && s.holdsInUse d.fn d.id ≥ 8192 && ((s.tenant d.fn).find d.key).elim false (·.lost == .no) then
      some (s.pushBack d.id (s.holdRetry d.fn))
    else none

/-- GET, GET_HOLD and VERIFY at their record: NOT_FOUND, a version other than the expected one (R124), then the record. -/
def State.serveKey (s : State) (d : Desc) (floored : Bool) : State :=
  match (s.tenant d.fn).find d.key with
  | none => s.answer d.id .notFound 0 (s.staleFlags d.key) [] []
  | some r =>
    if d.op = 0x40 && d.param ≠ 0#64 && d.param.toNat ≠ r.version then
      s.answer d.id .versionMismatch 0 (s.staleFlags d.key) [] []
    else if d.op = 0x03 then (s.holdGate d floored).getD (s.readRecord d r floored)
    else s.readRecord d r floored

/-- A record chosen by GET_GENERIC or a browse step, under the gate and the floor of its own set (R46): `go` serves it. -/
def State.foundGate (s : State) (d : Desc) (key : Bytes) (go : State → State) : State :=
  match s.setGate (s.keySet key) (d.opt 0x08) with
  | some (st, p) => s.refuse d.id st p
  | none => if s.floorWaits key (d.opt 0x08) then s.accept d.id .floorWait else go s

/-- A record chosen by GET_GENERIC. -/
def State.serveFound (s : State) (d : Desc) (key : Bytes) (floored : Bool) : State :=
  match (s.tenant d.fn).find key with
  | some r => s.foundGate d key (fun s => s.readRecord d r floored)
  | none => s.answer d.id .notFound 0 (s.staleFlags d.key) [] []

/-- The reply at an extent edge: the resume key, or END_OF_SPACE (R60); from a replica of a member that is OUTSIDE, with the
stale flag (R47). `here` is the partial key or the cursor's position. -/
def State.answerEdge (s : State) (d : Desc) (here : Bytes) (resume : Option Bytes) : State :=
  s.answer d.id .partialEdge 0 (replyFlags (s.staleFor here) resume.isNone) (resume.getD []) []

/-- GET_GENERIC (R59, R60, R110). -/
def State.serveGeneric (s : State) (d : Desc) (floored : Bool) : State :=
  if d.bitsOf 0 0 = 0 then
    match s.prefixLeast d.fn d.key with
    | some k => s.serveFound d k floored
    | none => s.answer d.id .notFound 0 (s.staleFlags d.key) [] []
  else
    match s.geStep d.fn d.key with
    | .at k => s.serveFound d k floored
    | .edge resume => s.answerEdge d d.key resume
    | .endOfRange => s.answer d.id .notFound 0 (s.staleFlags d.key) [] []

/-- The record that a step has reached: the position moves to its key unless the reply does not fit (R97, R116). -/
def State.stepTo (s : State) (d : Desc) (c : Cursor) (r : Rec) (floored : Bool) : State :=
  if r.lost = .no && !replyFits (s.port d.port).txMtu d (padOpts (s.staleFlags r.key)) r.key r.value then
    s.refuse d.id .length 0
  else (s.modTenant d.fn (·.modCursor c.slot (fun c => { c with pos := some r.key }))).readRecord d r floored

/-- A step that reaches no record has been the cursor's first step all the same: the position stays, and the steps that follow go
strictly beyond it (R55, R56). -/
def State.stepEnds (s : State) (d : Desc) (c : Cursor) : State :=
  s.modTenant d.fn (·.modCursor c.slot (fun c => { c with pos := some (c.pos.getD c.start) }))

/-- A browse step (R55, R56, R60, R116). -/
def State.serveStep (s : State) (d : Desc) (c : Cursor) (floored : Bool) : State :=
  let here := c.pos.getD c.start
  match s.browseStep d.fn c (d.op == 0x11) with
  | .endOfRange => (s.stepEnds d c).answer d.id .endOfRange 0 (s.staleFlags here) [] []
  | .edge resume => (s.stepEnds d c).answerEdge d here resume
  | .at k =>
    match (s.tenant d.fn).find k with
    | none => (s.stepEnds d c).answer d.id .endOfRange 0 (s.staleFlags here) [] []
    | some r => s.foundGate d k (fun s => s.stepTo d c r floored)

/-- A request is a browse step. -/
def Desc.isStep (d : Desc) : Bool := d.op == 0x11 || d.op == 0x12

/-- The cursor that a step names: judged in the tick of its last byte when it is taken up, and open while it waits (R57). -/
def State.stepCursor (s : State) (d : Desc) (floored : Bool) : Option Cursor :=
  if floored then (s.tenant d.fn).openedCursor (d.bitsOf 31 0)
  else (s.tenant d.fn).cursor (d.bitsOf 31 0) d.arrival

/-- A step that names a cursor restarts its lease, whatever becomes of the step (R57). -/
def State.restartLease (s : State) (d : Desc) (floored : Bool) : State :=
  match (if d.isStep && !floored then s.stepCursor d floored else none) with
  | some c => s.modTenant d.fn (·.modCursor c.slot (·.restart d.arrival (s.tenant d.fn).profile.leaseTicks))
  | none => s

/-- The key whose range a read's floor is judged on first: the key, or a cursor's position (R46). -/
def State.readKey (s : State) (d : Desc) (floored : Bool) : Option Bytes :=
  if d.isStep then (s.stepCursor d floored).map (fun c => c.pos.getD c.start) else some d.key

/-- A read past its gate and its floor. -/
def State.serveData (s : State) (d : Desc) (floored : Bool) : State :=
  if d.op = 0x02 then s.serveGeneric d floored
  else if d.isStep then
    match s.stepCursor d floored with
    | some c => s.serveStep d c floored
    | none => s.refuse d.id .cursorMissing 0
  else s.serveKey d floored

/-- A read that its floor holds back is accepted and waits (R46); a GET_HOLD is judged against the holds before it waits (R49,
R50). -/
def State.waitFloor (s : State) (d : Desc) : State :=
  (if d.op = 0x03 then s.holdGate d false else none).getD (s.accept d.id .floorWait)

/-- A read with its key looked up (R38, R46, R201, R224). -/
def State.serveGated (s : State) (d : Desc) (key : Bytes) (floored : Bool) : State :=
  match s.readGate d.fn key (d.opt 0x08) with
  | some (st, p) => s.refuse d.id st p
  | none => if s.floorWaits key (d.opt 0x08) then s.waitFloor d else s.serveData d floored

/-- A read served (R38, R46, R57, R201, R224, R360): GET, GET_GENERIC, GET_HOLD, browse steps and VERIFY. `floored` marks a
read that its floor had held back: it has been accepted and looked up, and is never pushed back (R98). -/
def State.serveRead (s : State) (d : Desc) (floored : Bool) : State :=
  if s.rebuilding && !floored then s.pushBack d.id 125
  else match s.readKey d floored with
    | none => s.refuse d.id .cursorMissing 0
    | some key => ((if floored then s else s.looked).restartLease d floored).serveGated d key floored

/-- A read that passed its checks, as its command serves it. -/
def State.readCommand (s : State) (id op : Nat) : State := s.serve id op (fun d s => s.serveRead d false)

/-- GET (R110). -/
def execGet (id : Nat) (s : State) : Host.Outcome State Fault Refusal := .next (s.readCommand id 0x01)

/-- GET_GENERIC (R59, R60, R110). -/
def execGetGeneric (id : Nat) (s : State) : Host.Outcome State Fault Refusal := .next (s.readCommand id 0x02)

/-- GET_HOLD (R48 to R53, R110). -/
def execGetHold (id : Nat) (s : State) : Host.Outcome State Fault Refusal := .next (s.readCommand id 0x03)

/-- BROWSE_NEXT (R55 to R60, R116). -/
def execBrowseNext (id : Nat) (s : State) : Host.Outcome State Fault Refusal := .next (s.readCommand id 0x11)

/-- BROWSE_PREV (R55 to R60, R116). -/
def execBrowsePrev (id : Nat) (s : State) : Host.Outcome State Fault Refusal := .next (s.readCommand id 0x12)

/-- VERIFY (R124). -/
def execVerify (id : Nat) (s : State) : Host.Outcome State Fault Refusal := .next (s.readCommand id 0x40)

/-- RELEASE (R49, R112): judged in the tick of its last byte. -/
def State.serveRelease (s : State) (d : Desc) : State :=
  if s.rebuilding then s.pushBack d.id 125
  else
    let s := s.looked
    if !s.owns d.fn d.key then s.refuse d.id .range 0
    else match (s.tenant d.fn).holdOf (d.bitsOf 31 0) d.key d.arrival with
      | some h => (s.modTenant d.fn (·.dropHold h.id)).finish d.id 0
      | none => s.refuse d.id .holdMissing 0

/-- RELEASE. -/
def execRelease (id : Nat) (s : State) : Host.Outcome State Fault Refusal :=
  .next (s.serve id 0x04 (fun d s => s.serveRelease d))

/-! ### Cursors -/

/-- The lowest slot of a tenant that holds no valid cursor (R115). -/
def Tenant.freeSlot (t : Tenant) (tick : Nat) : Option Nat :=
  (List.range 256).find? (fun n => !t.cursors.any (fun c => c.slot == n && c.validAt tick))

/-- Ticks until the earliest cursor lease expires (R58). -/
def Tenant.cursorRetry (t : Tenant) (tick : Nat) : Nat :=
  match (t.cursors.filter (·.validAt tick)).map (fun c => c.used + c.lease - tick) with
  | [] => 1
  | x :: xs => xs.foldl min x

/-- A cursor opened in a slot (R55, R57, R115): the slot's generation advances. -/
def Tenant.openCursor (t : Tenant) (slot : Nat) (generic : Bool) (start : Bytes) (used : Nat) : Tenant × Cursor :=
  let gen := ((assoc t.gens slot).getD 0 + 1) % 2 ^ 24
  let c : Cursor :=
    { slot := slot, gen := gen, generic := generic, start := start, pos := none, used := used,
      lease := t.profile.leaseTicks }
  ({ t with cursors := t.cursors.filter (fun x => x.slot != slot) ++ [c], gens := insertSorted slot gen t.gens }, c)

/-- BROWSE_OPEN (R55, R58, R59, R115). -/
def State.serveOpen (s : State) (d : Desc) : State :=
  if s.rebuilding then s.pushBack d.id 125
  else
    let s := s.looked
    if !s.owns d.fn d.key then s.refuse d.id .range 0
    else
      let t := s.tenant d.fn
      match t.freeSlot s.tick with
      | none => s.pushBack d.id (t.cursorRetry s.tick)
      | some n =>
        let r := t.openCursor n (d.bitsOf 0 0 == 1) d.key d.arrival
        (s.modTenant d.fn (fun _ => r.1)).finish d.id r.2.id

/-- BROWSE_OPEN. -/
def execBrowseOpen (id : Nat) (s : State) : Host.Outcome State Fault Refusal :=
  .next (s.serve id 0x10 (fun d s => s.serveOpen d))

/-- BROWSE_CLOSE (R57). -/
def State.serveClose (s : State) (d : Desc) : State :=
  match (s.tenant d.fn).cursor (d.bitsOf 31 0) d.arrival with
  | some c =>
    (s.modTenant d.fn (fun t => { t with cursors := t.cursors.filter (fun x => x.slot != c.slot) })).finish d.id 0
  | none => s.refuse d.id .cursorMissing 0

/-- BROWSE_CLOSE. -/
def execBrowseClose (id : Nat) (s : State) : Host.Outcome State Fault Refusal :=
  .next (s.serve id 0x13 (fun d s => s.serveClose d))

/-- HOLD_EXPIRE (R48): at the start of tick g + d. -/
def execHoldExpire (tenant hold : Nat) (s : State) : Host.Outcome State Fault Refusal :=
  .next (s.modTenant tenant (fun t =>
    { t with holds := t.holds.filter (fun h => h.id != hold || s.tick < h.start + h.dur) }))

/-- CURSOR_EXPIRE (R57): at the start of tick u + n. -/
def execCursorExpire (tenant slot : Nat) (s : State) : Host.Outcome State Fault Refusal :=
  .next (s.modTenant tenant (fun t =>
    { t with cursors := t.cursors.filter (fun c => c.slot != slot || s.tick < c.used + c.lease) }))

/-! ### Writes (3.4) -/

/-- The write set of R105 for a set and a tenant, with KEY_EXHAUSTED judged for a number of encrypted values. A member
that leaves admits no write for its sets (R218; the status is assumption log 39). -/
def State.writeSet (s : State) (fn set values : Nat) : Option (Status × Nat) :=
  if set != 0 && (s.span.apart || s.span.state == .leaving) then some (.outsideSpan, 0)
  else if set != 0 && s.span.readOnlyAt set then some (.rangeReadonly, 0)
  else if set != 0 && s.span.fencedAt set then some (.fenced, 0)
  else match s.keyShort fn (if set = 0 then 0 else values) with
    | some p => some (.keyExhausted, p)
    | none => if s.thermalOn then some (.thermal, 0) else none

/-- What a write meets before its holds (R38, R201, R105). -/
def State.writeGate (s : State) (fn : Nat) (key : Bytes) (values : Nat) : Option (Status × Nat) :=
  if !s.owns fn key then some (.range, 0)
  else
    let set := s.keySet key
    if set != 0 && !s.span.belongs set then some (.range, cfgSet s.span.record set)
    else s.writeSet fn set values

/-- The place of a request among those that finished parsing at one time or another: by instant, port A before port B (R43). -/
def Desc.stamp (d : Desc) : Nat := 2 * d.parsed + portNo d.port

/-- The hold that a write presents: REWRITE in its parameter, the others in HOLD_ID (R109, Table 3.4). -/
def Desc.presents (d : Desc) : Option Nat := if d.op = 0x0A then some (d.bitsOf 31 0) else d.holdIds.head?

/-- The holds of a write (R49, R51, R114), judged in the tick of its last byte: a hold that it does not present refuses
it with KEY_HELD, and a presented hold that is not valid with HOLD_MISSING. The hold used up is answered. -/
def State.holdCheck (s : State) (d : Desc) : Except (Status × Nat) (Option Hold) :=
  let t := s.tenant d.fn
  let other := match t.holdOn d.key d.arrival with
    | some h => if d.presents = some h.id then none else some h
    | none => none
  match other with
  | some h => if d.op = 0x0A then .error (.holdMissing, 0) else .error (.keyHeld, h.remaining d.arrival * 2 ^ 32)
  | none =>
    match d.presents with
    | none => .ok none
    | some id =>
      match t.holdOf id d.key d.arrival with
      | some h => .ok (some h)
      | none => .error (.holdMissing, 0)

/-- The entry of a plain write. A PATCH of a value that is not in the cache waits for its read (R113). -/
def State.writeEntry (s : State) (d : Desc) (hold : Option Hold) : Entry :=
  let cur := (s.tenant d.fn).find d.key
  let unread := match cur with
    | some r => if d.op = 0x0B && r.lost = .no && !r.cached then [d.key] else []
    | none => []
  let after : Option Bytes :=
    if d.op = 0x0C then none
    else if d.op = 0x0B then
      some (d.value ++ List.replicate (max (cur.elim 0 (·.value.length)) (d.bitsOf 20 0)) 0#8)
    else some d.value
  { desc := some d.id, kind := .write, set := s.keySet d.key, tenant := d.fn, op := d.op, param := d.param,
    key := d.key, value := d.value, expect := d.opt 0x0A, heldVer := hold.map (·.version), heldBy := [],
    heldKeys := [], readSet := [], tick := s.tick, wall := s.ledger.wall, unread := unread, effects := none,
    room := s.recordBytes [(d.key, after)], steps := 0, stamp := d.stamp }

/-- Room in the commit area for a record (R300): the retry-after count where it does not fit, the ticks that destage needs to free
what is wanting. Its rate is the drive's own. -/
def State.journalRoom (s : State) (room : Nat) : Option Nat :=
  if s.ledger.used + s.reserved + room ≤ commitArea then none
  else some (max 1 (min 625 (Config.destageTicks s.free (s.ledger.used + s.reserved + room - commitArea))))

/-- A write-class request turned away for want of room in the commit area, and counted (MED_JOURNAL_BP). -/
def State.journalBack (s : State) (id retry : Nat) : State :=
  ({ s with free := s.free + 1 }).bump 0x00060190 |>.pushBack id retry

/-- The ticks to the start of the member's next slot whose batch has room (R197): the batch that its next slot sends is full, so it is
that of the slot after. -/
def State.slotRetry (s : State) : Nat := max 1 (s.ticksToSlot + s.span.rotationTicks)

/-- The first read of a waiting entry begins on flash. -/
def State.fetchUnread (s : State) (id : Nat) (e : Entry) : State :=
  match e.unread with
  | [] => s
  | k :: _ =>
    match (s.tenant e.tenant).find k with
    | some r => s.beginRead id e.tenant r .ordered
    | none => s

/-- A program's hard bound (R272): its execution, the reads of the keys that its pre-run found, and bound J or S. -/
def State.programBound (s : State) (e : Entry) : Nat :=
  8 + 625 * e.readSet.length + (if e.set = 0 then 6 else s.boundS)

/-- An entry's ACCEPTED, with the hard bound of its completion (Table 3.1, R272). -/
def State.acceptEntry (s : State) (id : Nat) (e : Entry) : State :=
  if e.kind = .program then s.acceptBy id .ordered (some (s.programBound e))
  else if e.set = 0 then s.accept id .ordered
  else s.acceptBy id .ordered (some s.boundS)

/-- An entry admitted (R42, R194): a local one to the drive's order, a span-replicated one to the member's next batch.
`late` says that the result is not ready at the 4.50 µs point, so that ACCEPTED leaves now (Table 3.1); a span entry
always is. -/
def State.enterOrder (s : State) (id : Nat) (e : Entry) (late : Bool) : State :=
  let s := s.setPhase id .ordered
  if e.set = 0 then
    let s := if late || !e.unread.isEmpty then s.acceptEntry id e else s
    (s.fetchUnread id e).enqueueLocal e
  else
    (s.acceptEntry id e).joinBatch e

/-- The hold that a write is accepted under is used up (R49). -/
def State.useHold (s : State) (fn : Nat) (hold : Option Hold) : State :=
  match hold with
  | some h => s.modTenant fn (·.dropHold h.id)
  | none => s

/-- A span-replicated write whose hold and whose EXPECT_VERSION name two versions: the entry carries one expected version (Table
5.4), and no version of the key equals both (R109; assumption log 115). -/
def Entry.versionsDiffer (e : Entry) : Bool :=
  e.set != 0 && e.heldVer.isSome && e.expect.isSome && e.heldVer != e.expect

/-- A plain write served: the gate, the holds, room in the journal or the batch, then the order. -/
def State.serveWrite (s : State) (d : Desc) (late : Bool) : State :=
  if s.rebuilding then s.pushBack d.id 125
  else
    let s := s.looked
    match s.writeGate d.fn d.key (if d.op = 0x0C then 0 else 1) with
    | some (st, p) => s.refuse d.id st p
    | none =>
      match s.holdCheck d with
      | .error (st, p) => s.refuse d.id st p
      | .ok hold =>
        let e := s.writeEntry d hold
        match s.journalRoom e.room with
        | some retry => s.journalBack d.id retry
        | none =>
          if e.versionsDiffer then (s.useHold d.fn hold).refuse d.id .versionMismatch 0
          else if e.set != 0 && !s.batchRoom e then s.pushBack d.id s.slotRetry
          else (s.useHold d.fn hold).enterOrder d.id e late

/-- A plain write as its command serves it. -/
def State.writeCommand (s : State) (id op : Nat) (late : Bool) : State :=
  s.serve id op (fun d s => s.serveWrite d late)

/-- PUT (Table 3.4). -/
def execPut (id : Nat) (late : Bool) (s : State) : Host.Outcome State Fault Refusal := .next (s.writeCommand id 0x08 late)

/-- PUT_IF_VERSION (Table 3.4, R114). -/
def execPutIfVersion (id : Nat) (late : Bool) (s : State) : Host.Outcome State Fault Refusal :=
  .next (s.writeCommand id 0x09 late)

/-- REWRITE (R49, R52, Table 3.4). -/
def execRewrite (id : Nat) (late : Bool) (s : State) : Host.Outcome State Fault Refusal :=
  .next (s.writeCommand id 0x0A late)

/-- PATCH (R113). -/
def execPatch (id : Nat) (late : Bool) (s : State) : Host.Outcome State Fault Refusal :=
  .next (s.writeCommand id 0x0B late)

/-- DELETE (Table 3.4). -/
def execDelete (id : Nat) (late : Bool) (s : State) : Host.Outcome State Fault Refusal :=
  .next (s.writeCommand id 0x0C late)

/-! ### The journal (R42, R297 to R300) -/

/-- The effects of the front entry of the local order, once nothing more has to be read and, for a posting or program,
stage 3 or the tree run has passed. -/
def State.frontEffects (s : State) : Option (Entry × Effects) :=
  match s.ledger.order with
  | [] => none
  | e :: _ =>
    if !e.unread.isEmpty then none
    else match e.effects with
      | some fx => some (e, fx)
      | none =>
        if e.kind = .write then
          match s.decideWrite e with
          | .ok fx => some (e, fx)
          | .error _ => none
        else none



/-- JOURNAL_RECORD_COMPLETE (R42, R298): the valid word of the front entry's record stands in both copies. No record is
begun once power fails (R302). -/
def execJournalRecordComplete (s : State) : Host.Outcome State Fault Refusal :=
  if s.power.rails ≠ .on then .next s
  else match s.frontEffects with
    | none => .next s
    | some (e, fx) =>
      .next (s.commitEntry e s.ledger.digestCount fx).watchJournal.popOrder

/-- A transfer of a commit record's destage still waits for, or holds, a channel. -/
def State.destaging (s : State) (number : Nat) : Bool :=
  s.cinch.chans.any (fun c => c.reqs.any (fun q => q.flows.any (fun f => f.record == some number)))

/-- DESTAGE_COMPLETE (R299): every page of the oldest record has passed, and the free pointer advances past it. Nothing is programmed
with the rails off (R302), nor while the bank can finish no program (R303, 8.2.1). -/
def execDestageComplete (s : State) : Host.Outcome State Fault Refusal :=
  match s.ledger.journal with
  | [] => .next s
  | r :: rest =>
    if s.dark || s.power.programLimit = 0 || s.destaging r.number then .next s else
    let s := { s with
      ledger := { s.ledger with journal := rest, freePtr := (r.offset + r.size) % commitArea }
      media := { s.media with life := s.media.life.modify 1 (· + r.size) } }
    .next s.watchJournal

end Sys2Proof.Machine
end

