-- ==== Sys2Proof/Machine/Operands.lean ====
section
/-! DEFINITION. The operand forms of tally code (R155 to R157): registers, buffers, immediates, big-endian integers,
packed and zoned decimals. -/
namespace Sys2Proof.Machine
open Sys2Proof

/-! ### Fault codes (Table 4.6) -/

def faultStepLimit : Nat := 0x0001
def faultOverflow : Nat := 0x0002
def faultDivZero : Nat := 0x0003
def faultBadOpcode : Nat := 0x0004
def faultBadOperand : Nat := 0x0005
def faultBadDecimal : Nat := 0x0006
def faultDepth : Nat := 0x0007
def faultBadImage : Nat := 0x0008
def faultTooManyKeys : Nat := 0x0009
def faultValueTooLong : Nat := 0x000A
def faultBranchRange : Nat := 0x000B
def faultCalleeAbsent : Nat := 0x000C
def faultBadKey : Nat := 0x000D
def faultTooManyLegs : Nat := 0x000E

/-! ### Fields of imm (R156) -/

/-- The key buffer or first buffer: imm 7:6. -/
def bufFirst (imm : BitVec 16) : Nat := bits imm.toNat 7 6

/-- The second buffer: imm 5:4. -/
def bufSecond (imm : BitVec 16) : Nat := bits imm.toNat 5 4

/-- The third buffer: imm 3:2. -/
def bufThird (imm : BitVec 16) : Nat := bits imm.toNat 3 2

/-- The width: imm 4:0. -/
def widthOf (imm : BitVec 16) : Nat := bits imm.toNat 4 0

/-! ### Registers and buffers (R155) -/

/-- A register. -/
def Frame.reg (f : Frame) (a : Fin 16) : Int := f.regs.getD a.val 0

/-- A register written. -/
def Frame.setReg (f : Frame) (a : Fin 16) (v : Int) : Frame := { f with regs := f.regs.set a.val v }

/-- A register written with a result that 128 bits must hold. -/
def Frame.setChecked (f : Frame) (a : Fin 16) (v : Int) : Except Nat Frame :=
  if fitsSigned 128 v then .ok (f.setReg a v) else .error faultOverflow

/-- A buffer. -/
def Frame.buf (f : Frame) (i : Nat) : Bytes := f.bufs.getD i []

/-- A buffer replaced. -/
def Frame.setBuf (f : Frame) (i : Nat) (b : Bytes) : Frame := { f with bufs := f.bufs.set i b }

/-- The bytes that a load reads: `w` bytes at an offset that is not negative and within the length (R157). -/
def Frame.loadAt (f : Frame) (i : Nat) (off : Int) (w : Nat) : Except Nat Bytes :=
  if off < 0 || (f.buf i).length < off.toNat + w then .error faultBadOperand
  else .ok (slice (f.buf i) off.toNat w)

/-- A buffer with bytes stored at an offset: within 4,096, raising the length where they end beyond it (R157). The
bytes between the old length and the offset are zero (assumption log 22). -/
def Frame.storeAt (f : Frame) (i : Nat) (off : Int) (b : Bytes) : Except Nat Frame :=
  if off < 0 || 4096 < off.toNat + b.length then .error faultBadOperand
  else
    let old := padTo (max (f.buf i).length (off.toNat + b.length)) (f.buf i)
    .ok (f.setBuf i (old.take off.toNat ++ b ++ old.drop (off.toNat + b.length)))

/-- A width between 1 and a greatest value. -/
def checkWidth (w most : Nat) : Except Nat Unit := if 1 ≤ w && w ≤ most then .ok () else .error faultBadOperand

/-- A key buffer's content, 1 to 255 bytes (R157). -/
def Frame.keyOf (f : Frame) (i : Nat) : Except Nat Bytes :=
  if 1 ≤ (f.buf i).length && (f.buf i).length ≤ 255 then .ok (f.buf i) else .error faultBadKey

/-! ### Decimals (R157, Table 4.4) -/

/-- Decimal digits as a number, most significant first; `none` when one is above 9. -/
def digitsValue (ds : List Nat) : Option Nat :=
  if ds.all (· ≤ 9) then some (ofDigits ds) else none

/-- The sign of a sign nibble: 0xC and 0xF positive, 0xD negative. -/
def signOf (n : Nat) : Option Int := if n = 0xC || n = 0xF then some 1 else if n = 0xD then some (-1) else none

/-- A signed number from digits and a sign nibble. -/
def signedDigits (ds : List Nat) (sign : Nat) : Except Nat Int :=
  match digitsValue ds, signOf sign with
  | some v, some s => .ok (s * (v : Int))
  | _, _ => .error faultBadDecimal

/-- Packed decimal: two digits a byte, the last nibble the sign. -/
def packedValue (b : Bytes) : Except Nat Int := signedDigits (nibbles b).dropLast ((nibbles b).getLastD 0)

/-- Zoned decimal: a digit in each low nibble, the sign in the zone of the last byte. -/
def zonedValue (b : Bytes) : Except Nat Int :=
  signedDigits (b.map (fun x => x.toNat % 16)) ((b.getLastD 0#8).toNat / 16)

/-- The sign nibble that a store writes. -/
def signNibble (v : Int) : Nat := if v < 0 then 0xD else 0xC

/-- A number as packed decimal of `w` bytes. -/
def toPacked (w : Nat) (v : Int) : Except Nat Bytes :=
  if v.natAbs < 10 ^ (2 * w - 1) then .ok (ofNibbles (toDigits (2 * w - 1) v.natAbs ++ [signNibble v]))
  else .error faultOverflow

/-- A number as zoned decimal of `w` bytes: zones 0xF, the sign in the last zone. -/
def toZoned (w : Nat) (v : Int) : Except Nat Bytes :=
  if v.natAbs < 10 ^ w then
    let ds := toDigits w v.natAbs
    .ok ((ds.dropLast.map (fun d => BitVec.ofNat 8 (0xF0 + d))) ++
      [BitVec.ofNat 8 (signNibble v * 16 + ds.getLastD 0)])
  else .error faultOverflow

/-! ### Exact arithmetic -/

/-- Division rounded half to even (MULDIV). The divisor is not zero. -/
def divHalfEven (x y : Int) : Int :=
  let q := x.tdiv y
  let r := x.tmod y
  let away : Int := if (x < 0) = (y < 0) then 1 else -1
  if 2 * r.natAbs > y.natAbs then q + away
  else if 2 * r.natAbs = y.natAbs && q % 2 ≠ 0 then q + away
  else q

end Sys2Proof.Machine
end

