-- ==== Sys2Proof/Machine/Flags.lean ====
section
/-! DEFINITION. The compare flag of tally code and the conditions of BR (R155, Table 4.4). -/
namespace Sys2Proof.Machine
open Sys2Proof

/-- The flag that CMP leaves. -/
def compareFlag (x y : Int) : Ordering := if x < y then .lt else if x = y then .eq else .gt

/-- A condition of BR: 0 always, 1 eq, 2 ne, 3 lt, 4 le, 5 gt, 6 ge; `none` above 6. -/
def conditionHolds (c : Nat) (flag : Ordering) : Option Bool :=
  match c with
  | 0 => some true
  | 1 => some (flag == .eq)
  | 2 => some (flag != .eq)
  | 3 => some (flag == .lt)
  | 4 => some (flag != .gt)
  | 5 => some (flag == .gt)
  | 6 => some (flag != .lt)
  | _ => none

end Sys2Proof.Machine
end

