-- ==== Sys2Proof/Machine/Tally.lean ====
section
/-! DEFINITION. Tally code (4.3): images, the machine of an invocation tree, and every instruction of Table 4.4. -/
namespace Sys2Proof.Machine
open Sys2Proof

/-! ### Images (R154) -/

/-- An image's instruction count. -/
def imageCount (b : Bytes) : Nat := u16 b 2

/-- An image's declared steps: 0 means 65,536. -/
def imageSteps (b : Bytes) : Nat := if u16 b 6 = 0 then 65536 else u16 b 6

/-- An image keeps Table 4.3. -/
def imageOk (b : Bytes) : Bool :=
  16 ≤ b.length && byteAt b 0 == 2 && byteAt b 1 == 0 && 1 ≤ imageCount b && imageCount b ≤ 4096 && u16 b 4 ≤ 256 &&
    u64 b 8 == 0 && b.length == 16 + 4 * imageCount b + 16 * u16 b 4

/-- The frame of an invocation of an image (R155). -/
def imageFrame (b args : Bytes) (resultBuf : Nat) : Frame :=
  { code := slice b 16 (4 * imageCount b)
    consts := (chunk 16 (u16 b 4) (b.drop (16 + 4 * imageCount b))).map (fun c => toSigned 128 (beNat c))
    regs := List.replicate 16 0, flag := .eq, bufs := [args, [], [], []], pc := 0, resultBuf := resultBuf }

/-! ### How a tree ends (R151, R161, R164, R166) -/

/-- The depth of the running frame. -/
def Tree.depth (t : Tree) : Nat := t.frames.length

/-- The byte offset of the running instruction from image byte 16. -/
def Tree.offset (t : Tree) : Nat := (t.frames.head?).elim 0 (fun f => 4 * f.pc)

/-- A fault at the running instruction. -/
def Tree.fault (t : Tree) (code : Nat) : Tree := { t with ended := some (.fault code t.offset t.depth) }

/-- A refusal (R161). -/
def Tree.refuse (t : Tree) (st : Status) (param : Nat) : Tree :=
  { t with ended := some (.refused st (BitVec.ofNat 64 param) []) }

/-- An instruction on the running frame: the counter advances, or the tree faults. -/
def Tree.onFrame (t : Tree) (f : Frame → Except Nat Frame) : Tree :=
  match t.frames with
  | [] => t
  | fr :: rest =>
    match f fr with
    | .ok fr' => { t with frames := { fr' with pc := fr'.pc + 1 } :: rest }
    | .error code => t.fault code

/-! ### Arithmetic, moves and branches -/

def tallyLdi (a : Fin 16) (imm : BitVec 16) (f : Frame) : Except Nat Frame := .ok (f.setReg a imm.toInt)

def tallyLdc (a : Fin 16) (imm : BitVec 16) (f : Frame) : Except Nat Frame :=
  match f.consts[imm.toNat]? with
  | some v => .ok (f.setReg a v)
  | none => .error faultBadOperand

def tallyMov (a b : Fin 16) (f : Frame) : Except Nat Frame := .ok (f.setReg a (f.reg b))

def tallyAdd (a b : Fin 16) (f : Frame) : Except Nat Frame := f.setChecked a (f.reg a + f.reg b)

def tallySub (a b : Fin 16) (f : Frame) : Except Nat Frame := f.setChecked a (f.reg a - f.reg b)

def tallyMul (a b : Fin 16) (f : Frame) : Except Nat Frame := f.setChecked a (f.reg a * f.reg b)

/-- DIV truncates toward zero. -/
def tallyDiv (a b : Fin 16) (f : Frame) : Except Nat Frame :=
  if f.reg b = 0 then .error faultDivZero else f.setChecked a ((f.reg a).tdiv (f.reg b))

/-- REM has the sign of the dividend. -/
def tallyRem (a b : Fin 16) (f : Frame) : Except Nat Frame :=
  if f.reg b = 0 then .error faultDivZero else .ok (f.setReg a ((f.reg a).tmod (f.reg b)))

/-- MULDIV's divisor is the register that imm 3:0 names. -/
def divisorReg (imm : BitVec 16) : Fin 16 := ⟨bits imm.toNat 3 0, Nat.mod_lt _ (by decide)⟩

def tallyMuldiv (a b : Fin 16) (imm : BitVec 16) (f : Frame) : Except Nat Frame :=
  let d := f.reg (divisorReg imm)
  if d = 0 then .error faultDivZero else f.setChecked a (divHalfEven (f.reg a * f.reg b) d)

def tallyNeg (a : Fin 16) (f : Frame) : Except Nat Frame := f.setChecked a (-(f.reg a))

def tallyCmp (a b : Fin 16) (f : Frame) : Except Nat Frame :=
  .ok { f with flag := compareFlag (f.reg a) (f.reg b) }

/-- BR: the counter moves by imm from this instruction when the condition holds. A target outside the code faults. -/
def Tree.branch (t : Tree) (a : Fin 16) (imm : BitVec 16) : Tree :=
  match t.frames with
  | [] => t
  | f :: rest =>
    match conditionHolds a.val f.flag with
    | none => t.fault faultBadOperand
    | some false => { t with frames := { f with pc := f.pc + 1 } :: rest }
    | some true =>
      let target : Int := (f.pc : Int) + imm.toInt
      if target < 0 || (f.code.length : Int) ≤ 4 * target then t.fault faultBranchRange
      else { t with frames := { f with pc := target.toNat } :: rest }

/-! ### Buffers -/

def tallyLdbe (a b : Fin 16) (imm : BitVec 16) (f : Frame) : Except Nat Frame := do
  checkWidth (widthOf imm) 16
  let x ← f.loadAt (bufFirst imm) (f.reg b) (widthOf imm)
  return f.setReg a (toSigned (8 * widthOf imm) (beNat x))

def tallyStbe (a b : Fin 16) (imm : BitVec 16) (f : Frame) : Except Nat Frame := do
  checkWidth (widthOf imm) 16
  if fitsSigned (8 * widthOf imm) (f.reg a) then
    f.storeAt (bufFirst imm) (f.reg b) (toBe (widthOf imm) (ofSigned (8 * widthOf imm) (f.reg a)))
  else .error faultOverflow

def tallyLdpd (a b : Fin 16) (imm : BitVec 16) (f : Frame) : Except Nat Frame := do
  checkWidth (widthOf imm) 16
  let v ← packedValue (← f.loadAt (bufFirst imm) (f.reg b) (widthOf imm))
  return f.setReg a v

def tallyStpd (a b : Fin 16) (imm : BitVec 16) (f : Frame) : Except Nat Frame := do
  checkWidth (widthOf imm) 16
  f.storeAt (bufFirst imm) (f.reg b) (← toPacked (widthOf imm) (f.reg a))

def tallyLdzd (a b : Fin 16) (imm : BitVec 16) (f : Frame) : Except Nat Frame := do
  checkWidth (widthOf imm) 31
  let v ← zonedValue (← f.loadAt (bufFirst imm) (f.reg b) (widthOf imm))
  return f.setReg a v

def tallyStzd (a b : Fin 16) (imm : BitVec 16) (f : Frame) : Except Nat Frame := do
  checkWidth (widthOf imm) 31
  f.storeAt (bufFirst imm) (f.reg b) (← toZoned (widthOf imm) (f.reg a))

def tallyLen (a : Fin 16) (imm : BitVec 16) (f : Frame) : Except Nat Frame :=
  .ok (f.setReg a ((f.buf (bufFirst imm)).length : Int))

def tallySetlen (a : Fin 16) (imm : BitVec 16) (f : Frame) : Except Nat Frame :=
  let n := f.reg a
  if n < 0 || 4096 < n then .error faultBadOperand
  else .ok (f.setBuf (bufFirst imm) (padTo n.toNat (f.buf (bufFirst imm))))

/-! ### Records (R158, R160, R161, R165) -/

/-- What the tree sees under a key: its own last pending operation, else the committed record (R158). The inner value
is `none` for an absent key. A pending write has the version that the tree will commit under (assumption log 23). -/
def State.treeView (s : State) (t : Tree) (key : Bytes) : Except Lost (Option (Bytes × Nat)) :=
  match t.writes.reverse.find? (fun w => w.1 == key) with
  | some (_, some v) => .ok (some (v, t.seq))
  | some (_, none) => .ok none
  | none =>
    match (s.tenant t.tenant).find key with
    | none => .ok none
    | some r => if r.lost = .no then .ok (some (r.value, r.version)) else .error r.lost

/-- The version that the tree sees under a key, 0 for an absent one. -/
def State.treeVersion (s : State) (t : Tree) (key : Bytes) : Nat :=
  match t.writes.reverse.find? (fun w => w.1 == key) with
  | some (_, some _) => t.seq
  | some (_, none) => 0
  | none => ((s.tenant t.tenant).find key).elim 0 (·.version)

/-- A pending operation added to the tree. -/
def Tree.addWrite (t : Tree) (key : Bytes) (v : Option Bytes) : Tree := { t with writes := t.writes ++ [(key, v)] }

/-- A leg added to the tree. -/
def Tree.addLeg (t : Tree) (l : Leg) : Tree := { t with legs := t.legs ++ [l] }

/-- The namespace and the replication set of a key that a tree names (R62, R161, R201): RANGE, with the key's place among the
distinct keys in the order in which the tree names them where it lies in another set, the program's own key being number 0
(assumption log 122). -/
def State.treeKeyFault (s : State) (t : Tree) (key : Bytes) : Option Nat :=
  if !s.owns t.tenant key then some 0
  else if s.keySet key ≠ t.set then some t.names.length
  else none

/-- The distinct keys of a list with one more. -/
def addKey (keys : List Bytes) (k : Bytes) : List Bytes := if keys.contains k then keys else keys ++ [k]

/-- A tree names a key: RANGE ends it, or it goes on (R161, R201). -/
def State.nameKey (s : State) (t : Tree) (key : Bytes) (go : Tree → Tree) : Tree :=
  match s.treeKeyFault t key with
  | some p => t.refuse .range p
  | none => go { t with names := addKey t.names key }

/-- What the holds make of a key that a tree of the local order changes (R51, R52, R109, R161): KEY_HELD where another hold held it
when the request arrived, and VERSION_MISMATCH where a hold that the request presented has read another version. A span tree's
holds are judged on the member that granted them, before its first reply. -/
def State.treeHeld (s : State) (t : Tree) (key : Bytes) : Option (Status × Nat) :=
  let version := ((s.tenant t.tenant).find key).elim 0 (·.version)
  if t.set ≠ 0 then none
  else match t.heldBy.find? (fun h => h.1 == key) with
    | some h => some (.keyHeld, h.2 * 2 ^ 32)
    | none => if t.heldKeys.any (fun h => h.1 == key && h.2 != version) then some (.versionMismatch, 0) else none

/-- A loss as a status. -/
def Lost.status (l : Lost) : Status := if l = .integrity then .integrityFail else .uncorrectable

/-- READ. -/
def State.tallyRead (s : State) (a : Fin 16) (imm : BitVec 16) (t : Tree) : Tree :=
  match t.frames with
  | [] => t
  | f :: _ =>
    match f.keyOf (bufFirst imm) with
    | .error c => t.fault c
    | .ok key => s.nameKey t key (fun t =>
      let keys := addKey t.keysRead key
      if 64 < keys.length then t.fault faultTooManyKeys
      else
        let t := { t with keysRead := keys }
        match s.treeView t key with
        | .error l => t.refuse l.status 0
        | .ok none => t.onFrame (fun f => .ok ((f.setReg a 0).setBuf (bufSecond imm) []))
        | .ok (some (v, ver)) =>
          if 4096 < v.length then t.fault faultValueTooLong
          else t.onFrame (fun f => .ok ((f.setReg a (ver : Int)).setBuf (bufSecond imm) v)))

/-- A pending operation on a key: WRITE with a value, DEL without (R161, R165). The expected version is -1 for any, 0
for absent, else that version. -/
def State.tallyChange (s : State) (a : Fin 16) (imm : BitVec 16) (value : Frame → Option Bytes) (t : Tree) : Tree :=
  match t.frames with
  | [] => t
  | f :: _ =>
    match f.keyOf (bufFirst imm) with
    | .error c => t.fault c
    | .ok key => s.nameKey t key (fun t =>
      match s.treeHeld t key with
      | some (st, p) => t.refuse st p
      | none =>
        if 16 < (addKey (t.writes.map (·.1)).eraseDups key).length then t.fault faultTooManyKeys
        else
          if f.reg a = -1 || f.reg a = (s.treeVersion t key : Int) then
            (t.addWrite key (value f)).onFrame .ok
          else t.refuse .versionMismatch 0)

/-- WRITE. -/
def State.tallyWrite (s : State) (a : Fin 16) (imm : BitVec 16) (t : Tree) : Tree :=
  s.tallyChange a imm (fun f => some (f.buf (bufSecond imm))) t

/-- DEL. -/
def State.tallyDel (s : State) (a : Fin 16) (imm : BitVec 16) (t : Tree) : Tree := s.tallyChange a imm (fun _ => none) t

/-- A currency of three capital letters. -/
def currencyOk (c : Bytes) : Bool := c.length == 3 && c.all (fun x => 0x41 ≤ x.toNat && x.toNat ≤ 0x5A)

/-- LEG. -/
def State.tallyLeg (s : State) (a b : Fin 16) (imm : BitVec 16) (t : Tree) : Tree :=
  match t.frames with
  | [] => t
  | f :: _ =>
    let cur := toBe 3 (ofSigned 24 (f.reg b))
    match f.keyOf (bufFirst imm) with
    | .error c => t.fault c
    | .ok key =>
      if !currencyOk cur then t.fault faultBadOperand
      else if 16 ≤ t.legs.length then t.fault faultTooManyLegs
      else s.nameKey t key (fun t =>
        match s.treeHeld t key with
        | some (st, p) => t.refuse st p
        | none => (t.addLeg { currency := cur, amount := f.reg a, key := key }).onFrame .ok)

/-- CLK: the ordered quantities (R162, R174). -/
def Tree.tallyClk (t : Tree) (a : Fin 16) (imm : BitVec 16) : Tree :=
  t.onFrame (fun f =>
    match imm.toNat with
    | 0 => .ok (f.setReg a (t.tick : Int))
    | 1 => .ok (f.setReg a (t.wall : Int))
    | 2 => .ok (f.setReg a (t.day : Int))
    | 3 => .ok (f.setReg a (t.seq : Int))
    | _ => .error faultBadOperand)

/-! ### Control -/

/-- HALT: at depth 1 the tree has halted and its result is b3; deeper, b3 replaces the caller's result buffer (R155,
R163). -/
def Tree.tallyHalt (t : Tree) : Tree :=
  match t.frames with
  | [] => t
  | [f] => { t with ended := some .halted, result := f.buf 3 }
  | f :: g :: rest => { t with frames := g.setBuf f.resultBuf (f.buf 3) :: rest }

/-- CALL (R160, R163): the callee's image comes from committed state. R163 has CALLEE_ABSENT judged after the key's check of R161; that
DEPTH comes after both is the model's choice (assumption log 119), and that a callee which begins with 0x02 and is otherwise no
valid image faults with BAD_IMAGE at offset 0 and its own depth is read from 4.3.4 (assumption log 120). -/
def State.tallyCall (s : State) (imm : BitVec 16) (t : Tree) : Tree :=
  match t.frames with
  | [] => t
  | f :: rest =>
    match f.keyOf (bufFirst imm) with
    | .error c => t.fault c
    | .ok key => s.nameKey t key (fun t =>
      match (s.tenant t.tenant).find key with
      | none => t.fault faultCalleeAbsent
      | some r =>
        if r.lost ≠ .no then t.refuse r.lost.status 0
        else if byteAt r.value 0 ≠ 2 || r.value.isEmpty then t.fault faultCalleeAbsent
        else if 4 ≤ t.depth then t.fault faultDepth
        else if !imageOk r.value then { t with ended := some (.fault faultBadImage 0 (t.depth + 1)) }
        else
          { t with called := addKey t.called key, frames :=
            imageFrame r.value (f.buf (bufSecond imm)) (bufThird imm) :: { f with pc := f.pc + 1 } :: rest })

/-- FAIL: the fault code is 0x8000 + imm 7:0. -/
def Tree.tallyFail (t : Tree) (imm : BitVec 16) : Tree := t.fault (0x8000 + imm.toNat % 256)

/-- LONG (R164): a long operation's opcode ends the tree with BUSY_SELF. -/
def Tree.tallyLong (t : Tree) (imm : BitVec 16) : Tree :=
  let op := imm.toNat % 256
  if [0x30, 0x31, 0x60, 0x61, 0x62].contains op then { t with ended := some (.busySelf op t.offset t.depth) }
  else t.fault faultBadOperand

/-! ### Instructions in an image (R156) -/

/-- The instruction of four code bytes (Table 4.4). -/
def tallyDecode (w : Bytes) : Option Instr :=
  let x := byteAt w 1
  let a : Fin 16 := ⟨x / 16 % 16, Nat.mod_lt _ (by decide)⟩
  let b : Fin 16 := ⟨x % 16, Nat.mod_lt _ (by decide)⟩
  let imm : BitVec 16 := BitVec.ofNat 16 (u16 w 2)
  match byteAt w 0 with
  | 0x00 => some .halt
  | 0x01 => some (.ldi a imm)
  | 0x02 => some (.ldc a imm)
  | 0x03 => some (.mov a b)
  | 0x08 => some (.add a b)
  | 0x09 => some (.sub a b)
  | 0x0A => some (.mul a b)
  | 0x0B => some (.div a b)
  | 0x0C => some (.rem a b)
  | 0x0D => some (.muldiv a b imm)
  | 0x0E => some (.neg a)
  | 0x10 => some (.cmp a b)
  | 0x11 => some (.br a imm)
  | 0x18 => some (.ldbe a b imm)
  | 0x19 => some (.stbe a b imm)
  | 0x1A => some (.ldpd a b imm)
  | 0x1B => some (.stpd a b imm)
  | 0x1C => some (.ldzd a b imm)
  | 0x1D => some (.stzd a b imm)
  | 0x1E => some (.len a imm)
  | 0x1F => some (.setlen a imm)
  | 0x20 => some (.read a imm)
  | 0x21 => some (.write a imm)
  | 0x22 => some (.del a imm)
  | 0x23 => some (.leg a b imm)
  | 0x28 => some (.clk a imm)
  | 0x30 => some (.call imm)
  | 0x31 => some (.fail imm)
  | 0x32 => some (.long imm)
  | _ => none

/-- What an instruction does to the running tree. A command that is no instruction of tally code does nothing to it. -/
def State.tallyEffect (s : State) (i : Instr) (t : Tree) : Tree :=
  match i with
  | .halt => t.tallyHalt
  | .ldi a imm => t.onFrame (tallyLdi a imm)
  | .ldc a imm => t.onFrame (tallyLdc a imm)
  | .mov a b => t.onFrame (tallyMov a b)
  | .add a b => t.onFrame (tallyAdd a b)
  | .sub a b => t.onFrame (tallySub a b)
  | .mul a b => t.onFrame (tallyMul a b)
  | .div a b => t.onFrame (tallyDiv a b)
  | .rem a b => t.onFrame (tallyRem a b)
  | .muldiv a b imm => t.onFrame (tallyMuldiv a b imm)
  | .neg a => t.onFrame (tallyNeg a)
  | .cmp a b => t.onFrame (tallyCmp a b)
  | .br a imm => t.branch a imm
  | .ldbe a b imm => t.onFrame (tallyLdbe a b imm)
  | .stbe a b imm => t.onFrame (tallyStbe a b imm)
  | .ldpd a b imm => t.onFrame (tallyLdpd a b imm)
  | .stpd a b imm => t.onFrame (tallyStpd a b imm)
  | .ldzd a b imm => t.onFrame (tallyLdzd a b imm)
  | .stzd a b imm => t.onFrame (tallyStzd a b imm)
  | .len a imm => t.onFrame (tallyLen a imm)
  | .setlen a imm => t.onFrame (tallySetlen a imm)
  | .read a imm => s.tallyRead a imm t
  | .write a imm => s.tallyWrite a imm t
  | .del a imm => s.tallyDel a imm t
  | .leg a b imm => s.tallyLeg a b imm t
  | .clk a imm => t.tallyClk a imm
  | .call imm => s.tallyCall imm t
  | .fail imm => t.tallyFail imm
  | .long imm => t.tallyLong imm
  | _ => t

/-- The instruction that the running frame executes next; `none` beyond the code or for an opcode that Table 4.4 does
not list. -/
def Tree.current (t : Tree) : Option Instr :=
  match t.frames with
  | [] => none
  | f :: _ => if f.code.length ≤ 4 * f.pc then none else tallyDecode (slice f.code (4 * f.pc) 4)

/-- One step of a tree (R155, R156, R165). Running past the last instruction faults as a branch there would (assumption
log 24). -/
def State.treeStep (s : State) (t : Tree) : Tree :=
  if t.ended.isSome then t
  else match t.frames with
    | [] => t
    | f :: _ =>
      if f.code.length ≤ 4 * f.pc then t.fault faultBranchRange
      else if t.stepsLeft = 0 then t.fault faultStepLimit
      else match t.current with
        | none => t.fault faultBadOpcode
        | some i => s.tallyEffect i { t with stepsLeft := t.stepsLeft - 1 }

/-- A tree run to its end; every step that does not end it uses one of its steps. -/
def State.runTree (s : State) : Nat → Tree → Tree
  | 0, t => t
  | fuel + 1, t => if t.ended.isSome then t else s.runTree fuel (s.treeStep t)

/-- The tree of a program entry at its place in the order (R154, R160, R174). -/
def State.treeOf (s : State) (e : Entry) : Tree :=
  let base : Tree :=
    { tenant := e.tenant, set := e.set, heldBy := e.heldBy, heldKeys := e.heldKeys, names := [e.key],
      seq := s.nextSeqOf e.set, tick := e.tick, wall := e.wall,
      day := (s.tenant e.tenant).day, frames := [], stepsLeft := 0, keysRead := [], called := [], writes := [], legs := [],
      ended := none, result := [] }
  match (s.tenant e.tenant).find e.key with
  | none => base.refuse .notFound 0
  | some r =>
    if r.lost ≠ .no then base.refuse r.lost.status 0
    else if !imageOk r.value then { base with ended := some (.fault faultBadImage 0 1) }
    else { base with frames := [imageFrame r.value e.value 3], stepsLeft := imageSteps r.value }

/-- A tree run from its entry to its end. -/
def State.runEntry (s : State) (e : Entry) : Tree :=
  let t := s.treeOf e
  s.runTree (t.stepsLeft + 1) t

/-! ### The engine executes one instruction -/

/-- The front entry of the local order, when it is a program whose read set is at hand and which has no effects yet. -/
def Ledger.program (x : Ledger) : Option Entry :=
  match x.order with
  | e :: _ => if e.kind = .program && e.unread.isEmpty && e.effects.isNone then some e else none
  | [] => none

/-- The tree that the engine runs: the one under way, or that of the front program (R167). -/
def State.engineTree (s : State) : Option Tree :=
  match s.ledger.tree with
  | some t => some t
  | none => s.ledger.program.map s.treeOf

/-- One instruction of tally code executed by the engine: it acts when it is the instruction that the running tree
executes next, with a step left (assumption log 6). -/
def State.tallyStep (s : State) (i : Instr) : State :=
  match s.engineTree with
  | none => s
  | some t =>
    if t.ended.isNone && t.current = some i then
      { s with ledger := { s.ledger with tree := some (s.treeStep t) } }
    else s

/-- HALT. -/
def execHalt (s : State) : Host.Outcome State Fault Refusal := .next (s.tallyStep .halt)
/-- LDI. -/
def execLdi (a : Fin 16) (imm : BitVec 16) (s : State) : Host.Outcome State Fault Refusal :=
  .next (s.tallyStep (.ldi a imm))
/-- LDC. -/
def execLdc (a : Fin 16) (imm : BitVec 16) (s : State) : Host.Outcome State Fault Refusal :=
  .next (s.tallyStep (.ldc a imm))
/-- MOV. -/
def execMov (a b : Fin 16) (s : State) : Host.Outcome State Fault Refusal := .next (s.tallyStep (.mov a b))
/-- ADD. -/
def execAdd (a b : Fin 16) (s : State) : Host.Outcome State Fault Refusal := .next (s.tallyStep (.add a b))
/-- SUB. -/
def execSub (a b : Fin 16) (s : State) : Host.Outcome State Fault Refusal := .next (s.tallyStep (.sub a b))
/-- MUL. -/
def execMul (a b : Fin 16) (s : State) : Host.Outcome State Fault Refusal := .next (s.tallyStep (.mul a b))
/-- DIV. -/
def execDiv (a b : Fin 16) (s : State) : Host.Outcome State Fault Refusal := .next (s.tallyStep (.div a b))
/-- REM. -/
def execRem (a b : Fin 16) (s : State) : Host.Outcome State Fault Refusal := .next (s.tallyStep (.rem a b))
/-- MULDIV. -/
def execMuldiv (a b : Fin 16) (imm : BitVec 16) (s : State) : Host.Outcome State Fault Refusal :=
  .next (s.tallyStep (.muldiv a b imm))
/-- NEG. -/
def execNeg (a : Fin 16) (s : State) : Host.Outcome State Fault Refusal := .next (s.tallyStep (.neg a))
/-- CMP. -/
def execCmp (a b : Fin 16) (s : State) : Host.Outcome State Fault Refusal := .next (s.tallyStep (.cmp a b))
/-- BR. -/
def execBr (a : Fin 16) (imm : BitVec 16) (s : State) : Host.Outcome State Fault Refusal :=
  .next (s.tallyStep (.br a imm))
/-- LDBE. -/
def execLdbe (a b : Fin 16) (imm : BitVec 16) (s : State) : Host.Outcome State Fault Refusal :=
  .next (s.tallyStep (.ldbe a b imm))
/-- STBE. -/
def execStbe (a b : Fin 16) (imm : BitVec 16) (s : State) : Host.Outcome State Fault Refusal :=
  .next (s.tallyStep (.stbe a b imm))
/-- LDPD. -/
def execLdpd (a b : Fin 16) (imm : BitVec 16) (s : State) : Host.Outcome State Fault Refusal :=
  .next (s.tallyStep (.ldpd a b imm))
/-- STPD. -/
def execStpd (a b : Fin 16) (imm : BitVec 16) (s : State) : Host.Outcome State Fault Refusal :=
  .next (s.tallyStep (.stpd a b imm))
/-- LDZD. -/
def execLdzd (a b : Fin 16) (imm : BitVec 16) (s : State) : Host.Outcome State Fault Refusal :=
  .next (s.tallyStep (.ldzd a b imm))
/-- STZD. -/
def execStzd (a b : Fin 16) (imm : BitVec 16) (s : State) : Host.Outcome State Fault Refusal :=
  .next (s.tallyStep (.stzd a b imm))
/-- LEN. -/
def execLen (a : Fin 16) (imm : BitVec 16) (s : State) : Host.Outcome State Fault Refusal :=
  .next (s.tallyStep (.len a imm))
/-- SETLEN. -/
def execSetlen (a : Fin 16) (imm : BitVec 16) (s : State) : Host.Outcome State Fault Refusal :=
  .next (s.tallyStep (.setlen a imm))
/-- READ. -/
def execRead (a : Fin 16) (imm : BitVec 16) (s : State) : Host.Outcome State Fault Refusal :=
  .next (s.tallyStep (.read a imm))
/-- WRITE. -/
def execWrite (a : Fin 16) (imm : BitVec 16) (s : State) : Host.Outcome State Fault Refusal :=
  .next (s.tallyStep (.write a imm))
/-- DEL. -/
def execDel (a : Fin 16) (imm : BitVec 16) (s : State) : Host.Outcome State Fault Refusal :=
  .next (s.tallyStep (.del a imm))
/-- LEG. -/
def execLeg (a b : Fin 16) (imm : BitVec 16) (s : State) : Host.Outcome State Fault Refusal :=
  .next (s.tallyStep (.leg a b imm))
/-- CLK. -/
def execClk (a : Fin 16) (imm : BitVec 16) (s : State) : Host.Outcome State Fault Refusal :=
  .next (s.tallyStep (.clk a imm))
/-- CALL. -/
def execCall (imm : BitVec 16) (s : State) : Host.Outcome State Fault Refusal := .next (s.tallyStep (.call imm))
/-- FAIL. -/
def execFail (imm : BitVec 16) (s : State) : Host.Outcome State Fault Refusal := .next (s.tallyStep (.fail imm))
/-- LONG. -/
def execLong (imm : BitVec 16) (s : State) : Host.Outcome State Fault Refusal := .next (s.tallyStep (.long imm))

end Sys2Proof.Machine
end

