-- ==== Sys2Proof/Machine/Postings.lean ====
section
/-! DEFINITION. Postings and posting programs (4.1 to 4.3): the posting body, the three stages of checks, and the runs
that decide an entry at its place in the order. -/
namespace Sys2Proof.Machine
open Sys2Proof

/-! ### The posting body (R117) -/

/-- The legs of a body from a byte offset on, with the bytes after the last; `none` where the lengths do not fit. -/
def parseLegs : Nat → Bytes → Option (List Leg × Bytes)
  | 0, b => some ([], b)
  | n + 1, b =>
    let k := byteAt b 0
    if b.length < 21 + k || k = 0 then none
    else
      let leg : Leg :=
        { currency := slice b 1 3, amount := toSigned 128 (beNat (slice b 4 16)), key := slice b 21 k }
      (parseLegs n (b.drop (21 + k))).map (fun r => (leg :: r.1, r.2))

/-- The legs of a posting body whose lengths keep R117. -/
def bodyLegs (b : Bytes) : Option (List Leg) :=
  let n := byteAt b 0
  if b.length < 16 || n = 0 || 16 < n || 256 < u16 b 2 then none
  else match parseLegs n (b.drop 16) with
    | some (legs, rest) => if rest.length = u16 b 2 then some legs else none
    | none => none

/-- The index of the first leg that fails a test. -/
def firstLeg (legs : List Leg) (bad : Leg → Bool) : Option Nat := legs.findIdx? bad

/-! ### Zero sums (R148 item 4) -/

/-- The exact sum of a currency's amounts. -/
def sumOf (legs : List Leg) (currency : Bytes) : Int :=
  legs.foldl (fun acc l => if l.currency = currency then acc + l.amount else acc) 0

/-- The first leg of the first currency, in order of appearance, whose amounts do not sum to zero. -/
def zeroSumFault (legs : List Leg) : Option Nat := firstLeg legs (fun l => sumOf legs l.currency != 0)

/-- INVARIANT_FAILED's parameter: the leg, and the reason code (R151, Table 4.2). -/
def invariantParam (leg reason : Nat) : Nat := leg + 256 * reason

/-! ### Accounts (R143, R144, R146) -/

/-- A record's value is an account that is not malformed. -/
def accountOk (v : Bytes) : Bool :=
  isAccountValue v && currencyOk (slice v 1 3) && u32 v 4 < 4 && allZero (slice v 48 16)

/-- FLOOR_ON. -/
def floorOn (v : Bytes) : Bool := bit (u32 v 4) 0

/-- CLOSED. -/
def accountClosed (v : Bytes) : Bool := bit (u32 v 4) 1

/-- The balance. -/
def balanceOf (v : Bytes) : Int := toSigned 128 (beNat (slice v 16 16))

/-- The floor. -/
def accountFloor (v : Bytes) : Int := toSigned 128 (beNat (slice v 32 16))

/-- An account after a posting: the balance and the last sequence changed, every other byte kept (R146). -/
def postedValue (v : Bytes) (balance : Int) (seq : Nat) : Bytes :=
  v.take 8 ++ toBe 8 seq ++ toBe 16 (ofSigned 128 balance) ++ v.drop 32

/-- Why a leg's account refuses it (R150, items 1 to 5). -/
def legFault (view : Bytes → Except Lost (Option Bytes)) (i : Nat) (l : Leg) : Option (Status × Nat × Bytes) :=
  match view l.key with
  | .error lost => some (lost.status, i, [])
  | .ok none => some (.notFound, i, l.key)
  | .ok (some v) =>
    if !accountOk v then some (.invariantFailed, invariantParam i 4, [])
    else if accountClosed v then some (.invariantFailed, invariantParam i 5, [])
    else if l.currency ≠ slice v 1 3 then some (.invariantFailed, invariantParam i 2, [])
    else none

/-- The first leg that its account refuses. -/
def firstLegFault (view : Bytes → Except Lost (Option Bytes)) : Nat → List Leg → Option (Status × Nat × Bytes)
  | _, [] => none
  | i, l :: rest => match legFault view i l with
    | some x => some x
    | none => firstLegFault view (i + 1) rest

/-- An account that legs touch: its key, the first leg that names it, its value and its net change. -/
structure Touched where
  key   : Bytes
  leg   : Nat
  value : Bytes
  net   : Int
  deriving DecidableEq, Repr

/-- The accounts of legs, in the order of the first leg that names each. -/
def touched (view : Bytes → Except Lost (Option Bytes)) (legs : List Leg) : List Touched :=
  ((legs.map (·.key)).eraseDups).map (fun k =>
    { key := k
      leg := (firstLeg legs (fun l => l.key == k)).getD 0
      value := match view k with
        | .ok (some v) => v
        | _ => []
      net := legs.foldl (fun acc l => if l.key = k then acc + l.amount else acc) 0 })

/-- Stage 3 (R150): the values that the touched accounts take, or the refusal. -/
def stage3 (view : Bytes → Except Lost (Option Bytes)) (seq : Nat) (legs : List Leg) :
    Except (Status × Nat × Bytes) (List (Bytes × Bytes)) :=
  match firstLegFault view 0 legs with
  | some x => .error x
  | none =>
    let accs := touched view legs
    match accs.find? (fun a => !fitsSigned 128 (balanceOf a.value + a.net)) with
    | some a => .error (.invariantFailed, invariantParam a.leg 3, [])
    | none =>
      match accs.find? (fun a =>
        floorOn a.value && a.net < 0 && balanceOf a.value + a.net < accountFloor a.value) with
      | some a => .error (.floorBreached, a.leg, [])
      | none => .ok (accs.map (fun a => (a.key, postedValue a.value (balanceOf a.value + a.net) seq)))

/-- The committed value under a key of a tenant. -/
def State.committed (s : State) (t : Nat) (key : Bytes) : Except Lost (Option Bytes) :=
  match (s.tenant t).find key with
  | none => .ok none
  | some r => if r.lost = .no then .ok (some r.value) else .error r.lost

/-! ### Deciding an entry at its place in the order -/

/-- KEY_EXHAUSTED at a local entry's place (R376): judged for the values that it stores. -/
def State.shortage (s : State) (e : Entry) (writes : List (Bytes × Option Bytes)) : Option Nat :=
  if e.set ≠ 0 || writes.isEmpty then none else s.keyShort e.tenant (writes.filter (·.2.isSome)).length

/-- A POST at its place in the order (R150). -/
def State.decidePost (s : State) (e : Entry) : Except (Status × Nat × Bytes) Effects :=
  let legs := (bodyLegs e.value).getD []
  match stage3 (s.committed e.tenant) (s.nextSeqOf e.set) legs with
  | .error x => .error x
  | .ok accs =>
    let writes := accs.map (fun a => (a.1, some a.2))
    match s.shortage e writes with
    | some p => .error (.keyExhausted, p, [])
    | none => .ok { writes := writes, result := [], legs := legs }

/-- The pending operations of a tree with the last on each key kept (R159). A written account keeps its last sequence
(R145), and a deletion of an absent key changes nothing (assumption log 25). -/
def State.finalWrites (s : State) (t : Tree) : List (Bytes × Option Bytes) :=
  let keys := (t.writes.map (·.1)).eraseDups
  keys.filterMap (fun k =>
    let old := (s.tenant t.tenant).find k
    match t.writes.reverse.find? (fun w => w.1 == k) with
    | some (_, some v) => some (k, some (keepLastSeq (old.map (·.value)) v))
    | _ => if old.isSome then some (k, none) else none)

/-- The state that the legs of a tree see: committed records under the tree's own writes (R159). -/
def State.overlay (s : State) (t : Nat) (writes : List (Bytes × Option Bytes)) (key : Bytes) :
    Except Lost (Option Bytes) :=
  match writes.find? (fun w => w.1 == key) with
  | some (_, v) => .ok v
  | none => s.committed t key

/-- Logical bytes after writes (R36). -/
def State.logicalAfter (s : State) (t : Nat) (writes : List (Bytes × Option Bytes)) : Nat :=
  writes.foldl (fun n w =>
    n - ((s.tenant t).find w.1).elim 0 Rec.size + w.2.elim 0 (fun v => w.1.length + v.length)) (s.tenant t).logical

/-- A tree that has ended, as effects or as the refusal that its reply carries (R151, R159, R161, R164, R166). -/
def State.treeEffects (s : State) (e : Entry) (t : Tree) : Except (Status × Nat × Bytes) Effects :=
  match t.ended with
  | none => .error (.programFault, faultStepLimit, [])
  | some (.fault code off depth) => .error (.programFault, code + off * 2 ^ 16 + depth * 2 ^ 48, [])
  | some (.busySelf op off depth) => .error (.busySelf, op + off * 2 ^ 16 + depth * 2 ^ 48, [])
  | some (.refused st param key) => .error (st, param.toNat, key)
  | some .halted =>
    let writes := s.finalWrites t
    match zeroSumFault t.legs with
    | some i => .error (.invariantFailed, invariantParam i 1, [])
    | none =>
      match stage3 (s.overlay e.tenant writes) t.seq t.legs with
      | .error x => .error x
      | .ok accs =>
        let all := writes.filter (fun w => !accs.any (fun a => a.1 == w.1)) ++ accs.map (fun a => (a.1, some a.2))
        if s.overQuota e.tenant (s.logicalAfter e.tenant all) then .error (.quotaExceeded, 0, [])
        else match s.shortage e all with
          | some p => .error (.keyExhausted, p, [])
          | none => .ok { writes := all, result := t.result, legs := t.legs }

/-- An entry decided at its place in the order. -/
def State.decideEntry (s : State) (e : Entry) : Except (Status × Nat × Bytes) Effects :=
  match e.kind with
  | .post => s.decidePost e
  | .program => s.treeEffects e (s.runEntry e)
  | _ => match s.decideWrite e with
    | .ok fx => .ok fx
    | .error (st, p) => .error (st, p, [])

/-- A program's tree halted, and the refusal is that of its legs (R118, R150): neither the quota nor the key counter. -/
def legsRefused (tree : Option Tree) (st : Status) : Bool :=
  tree.elim false (fun t => t.ended == some .halted) && st != .quotaExceeded && st != .keyExhausted

/-- A refusal of the engine counted (Table 4.7): a posting's, a program's by its legs, its fault, or its BUSY_SELF. -/
def State.countRefusal (s : State) (kind : EntryKind) (tree : Option Tree) (st : Status) : State :=
  if kind = .post || (kind = .program && legsRefused tree st) then s.bump 0x000C0028
  else if kind = .program && st == .programFault then s.bump 0x000C0030
  else if kind = .program && st == .busySelf then s.bump 0x000C0038
  else s

/-- A refusal of the engine is the completion (R119, R147, R166): ACCEPTED leaves first where there has been no first
reply. -/
def State.acceptFirst (s : State) (e : Entry) : State := e.desc.elim s (fun id => s.acceptEntry id e)

/-- The front entry of the local order decided: its effects wait for their journal record; a refusal, or a tree that
changed nothing, ends it at once (R119, R147). -/
def State.decideFront (s : State) (e : Entry) (tree : Option Tree) (r : Except (Status × Nat × Bytes) Effects) : State :=
  match r with
  | .error (st, p, key) =>
    (((s.acceptFirst e).countRefusal e.kind tree st).refuseEntry e s.ledger.digestCount st p key).popOrder
  | .ok fx =>
    if fx.writes.isEmpty then (s.commitEntry e s.ledger.digestCount fx).popOrder
    else { s with ledger := { s.ledger with order := { e with effects := some fx } :: s.ledger.order.drop 1 } }

/-- POSTING_STAGE3 (R147, R150, R152): the posting at the front of the order. -/
def execPostingStage3 (s : State) : Host.Outcome State Fault Refusal :=
  match s.ledger.order with
  | e :: _ =>
    if e.kind = .post && e.unread.isEmpty && e.effects.isNone then .next (s.decideFront e none (s.decidePost e))
    else .next s
  | [] => .next s

/-- Keys whose records have to be read from flash. -/
def State.uncached (s : State) (t : Nat) (keys : List Bytes) : List Bytes :=
  keys.eraseDups.filter (fun k => ((s.tenant t).find k).elim false (fun r => r.lost == .no && !r.cached))

/-- Records that a tree names and that still have to be read from flash, for an entry whose request stands on this drive:
its extra reads (R169, assumption log 105). -/
def State.treeMissing (s : State) (e : Entry) (t : Tree) : List Bytes :=
  if e.desc.isSome then s.uncached t.tenant (t.called ++ t.keysRead ++ t.legs.map (·.key)) else []

/-- The front program waits for records that its tree turned out to need, and then runs again. -/
def State.fetchMore (s : State) (e : Entry) (keys : List Bytes) : State :=
  let s := s.acceptFirst e
  { s with ledger := { s.ledger with tree := none, order := { e with unread := keys } :: s.ledger.order.drop 1 } }

/-- PROGRAM_TREE_RUN (R154 to R166, R169): the tree of the program at the front of the order runs to its end. -/
def execProgramTreeRun (s : State) : Host.Outcome State Fault Refusal :=
  match s.ledger.program, s.engineTree with
  | some e, some t =>
    let t := s.runTree (t.stepsLeft + 1) t
    let more := s.treeMissing e t
    if more.isEmpty then .next ({ s with ledger := { s.ledger with tree := none } }.decideFront e (some t) (s.treeEffects e t))
    else .next (s.fetchMore e more)
  | _, _ => .next s

/-! ### Admission (R148, R149, R167 to R169) -/

/-- Engine steps that admission leaves room for (R167, R168): the retry-after count where an entry does not fit. A program that
declares more steps than the bound is admitted alone, when nothing else is unexecuted (assumption log 116). -/
def State.engineRoom (s : State) (set cost : Nat) : Option Nat :=
  if set ≠ 0 then none
  else if s.span.counts then
    if s.localSteps + cost ≤ 4096 || s.localSteps = 0 then none
    else some (max 1 (min 625 (ceilDiv (s.localSteps + cost - 4096) 2048)))
  else if s.engineSteps + cost ≤ 16384 || s.engineSteps = 0 then none
  else some (max 1 (min 625 (ceilDiv (s.engineSteps + cost - 16384) 8192)))

/-- Stage 1 of a POST (R148) as status and parameter, and the replication set of its legs (R201). -/
def State.postStage1 (s : State) (d : Desc) : Except (Status × Nat) (List Leg × Nat) :=
  match bodyLegs d.value with
  | none => .error (.length, 0)
  | some legs =>
    match firstLeg legs (fun l => !currencyOk l.currency) with
    | some i => .error (.range, i)
    | none =>
      match firstLeg legs (fun l => !s.owns d.fn l.key) with
      | some i => .error (.range, i)
      | none =>
        let set := (legs.head?).elim 0 (fun l => s.keySet l.key)
        if set != 0 && !s.span.belongs set then .error (.range, cfgSet s.span.record set)
        else match firstLeg legs (fun l => s.keySet l.key != set) with
          | some i => .error (.range, i)
          | none =>
            let date := u32 d.value 4
            let day := (s.tenant d.fn).day
            if date ≠ 0 && !(day ≤ date + 31 && date ≤ day + 31) then .error (.range, 0)
            else match zeroSumFault legs with
              | some i => .error (.invariantFailed, invariantParam i 1)
              | none => .ok (legs, set)

/-- Stage 2 of a POST (R149): a leg under a hold that is not presented, then a presented hold that is not valid on one
of the legs' keys. -/
def State.postStage2 (s : State) (d : Desc) (legs : List Leg) : Option (Status × Nat) :=
  let t := s.tenant d.fn
  let held (l : Leg) : Option Hold := (t.holdOn l.key d.arrival).filter (fun h => !d.holdIds.contains h.id)
  match firstLeg legs (fun l => (held l).isSome) with
  | some i =>
    let left := ((legs[i]?).bind held).elim 0 (·.remaining d.arrival)
    some (.keyHeld, i + left * 2 ^ 32)
  | none =>
    if d.holdIds.all (fun id => legs.any (fun l => (t.holdOf id l.key d.arrival).isSome)) then none
    else some (.holdMissing, 0)

/-- The holds that a request presents are used up (R49). -/
def State.useHolds (s : State) (fn : Nat) (ids : List Nat) : State :=
  ids.foldl (fun s id => s.modTenant fn (·.dropHold id)) s

/-- The bounds of engine, journal and batch for an entry, then its admission. -/
def State.admitEngine (s : State) (d : Desc) (e : Entry) (late : Bool) : State :=
  match s.engineRoom e.set e.cost with
  | some retry => s.pushBack d.id retry
  | none =>
    match s.journalRoom e.room with
    | some retry => s.journalBack d.id retry
    | none =>
      if e.set != 0 && !s.batchRoom e then s.pushBack d.id s.slotRetry
      else ((s.useHolds d.fn d.holdIds).enterOrder d.id e late).notePeak

/-- POST (R117, R118, R147 to R149). -/
def State.servePost (s : State) (d : Desc) (late : Bool) : State :=
  if s.rebuilding then s.pushBack d.id 125
  else
    let s := s.looked
    match s.postStage1 d with
    | .error (st, p) => (s.bump 0x000C0028).refuse d.id st p
    | .ok (legs, set) =>
      let keys := (legs.map (·.key)).eraseDups
      match s.writeSet d.fn set keys.length with
      | some (st, p) => s.refuse d.id st p
      | none =>
        match s.postStage2 d legs with
        | some (st, p) => (s.bump 0x000C0028).refuse d.id st p
        | none =>
          let values := keys.map (fun k => (k, ((s.tenant d.fn).find k).map (·.value)))
          let e : Entry :=
            { desc := some d.id, kind := .post, set := set, tenant := d.fn, op := d.op, param := d.param, key := [],
              value := d.value, expect := none, heldVer := none, heldBy := [], heldKeys := [],
              readSet := keys.map Config.fingerprint, tick := s.tick, wall := s.ledger.wall,
              unread := s.uncached d.fn keys, effects := none, room := s.recordBytes values, steps := 64,
              stamp := d.stamp }
          s.admitEngine d e late

/-- POST. -/
def execPost (id : Nat) (late : Bool) (s : State) : Host.Outcome State Fault Refusal :=
  .next (s.serve id 0x20 (fun d s => s.servePost d late))

/-- The holds valid in the tick of a request's last byte (R49): those that it presents, or those that it does not. -/
def State.holdsAt (s : State) (d : Desc) (presented : Bool) : List Hold :=
  (s.tenant d.fn).holds.filter (fun h => h.validAt d.arrival && d.holdIds.contains h.id == presented)

/-- The entry of a POST_PROGRAM before its pre-run. -/
def State.programEntry (s : State) (d : Desc) (r : Rec) : Entry :=
  { heldBy := (s.holdsAt d false).map (fun h => (h.key, h.remaining d.arrival))
    heldKeys := (s.holdsAt d true).map (fun h => (h.key, h.version))
    desc := some d.id, kind := .program, set := s.keySet d.key, tenant := d.fn, op := d.op, param := d.param,
    key := d.key, value := d.value, expect := none, heldVer := none, readSet := [], tick := s.tick,
    wall := s.ledger.wall, unread := [], effects := none, room := 0,
    steps := if imageOk r.value then imageSteps r.value else 0, stamp := d.stamp }

/-- The keys that a pre-run found (R169): read, and the accounts of its legs. -/
def Tree.readKeys (t : Tree) : List Bytes := (t.keysRead ++ t.legs.map (·.key)).eraseDups.take 64

/-- Stage 2 for a program (R49, R51, R52, R161): a presented hold that is not valid; and, for a span entry, whose holds are
judged before its first reply on the member that granted them, a key that the pre-run changes under another hold, or under a
presented one that has read another version (assumption log 118). -/
def State.programHolds (s : State) (d : Desc) (e : Entry) (t : Tree) : Option (Status × Nat) :=
  let changed := t.writes.map (·.1) ++ t.legs.map (·.key)
  let held := if e.set = 0 then none
    else changed.findSome? (fun k => s.treeHeld { t with set := 0 } k)
  match held with
  | some x => some x
  | none =>
    if d.holdIds.all (fun id => (s.holdsAt d true).any (fun h => h.id == id)) then none else some (.holdMissing, 0)

/-- POST_PROGRAM (R119, R167 to R169): the pre-run learns the read set, and then the program is admitted. -/
def State.serveProgram (s : State) (d : Desc) (late : Bool) : State :=
  if s.rebuilding then s.pushBack d.id 125
  else
    let s := s.looked
    match s.writeGate d.fn d.key 0 with
    | some (st, p) => s.refuse d.id st p
    | none =>
      match (s.tenant d.fn).find d.key with
      | none => s.refuse d.id .notFound 0
      | some r =>
        if r.lost ≠ .no then s.refuse d.id r.lost.status 0
        else
          let e := s.programEntry d r
          let t := s.runEntry e
          let fx := s.treeEffects e t
          let values := match fx with
            | .ok fx => fx.writes
            | .error _ => []
          match s.programHolds d e t with
          | some (st, p) => s.refuse d.id st p
          | none =>
            if e.set != 0 && (s.keyShort d.fn (values.filter (·.2.isSome)).length).isSome then
              s.refuse d.id .keyExhausted 0
            else
              s.admitEngine d { e with
                readSet := t.readKeys.map Config.fingerprint
                unread := s.uncached d.fn (d.key :: t.called ++ t.readKeys)
                room := s.recordBytes values } late

/-- POST_PROGRAM. -/
def execPostProgram (id : Nat) (late : Bool) (s : State) : Host.Outcome State Fault Refusal :=
  .next (s.serve id 0x21 (fun d s => s.serveProgram d late))

end Sys2Proof.Machine
end

