-- ==== Sys2Proof/Machine/Long.lean ====
section
/-! DEFINITION. Long operations (3.8): beginning and ending, FORMAT_TENANT, REKEY and COMPACT. -/
namespace Sys2Proof.Machine
open Sys2Proof

/-! ### Beginning and ending -/

/-- A long operation begins at its first reply (R128): the tenant is BUSY until it ends. -/
def State.beginLong (s : State) (id t op : Nat) (kind : LongKind) (count : Nat) : State :=
  let l : LongOp :=
    { kind := kind, issuer := some id, opcode := op, percent := 0, wasStopped := (s.tenant t).state == .stopped,
      count := count }
  (s.acceptBy id .longOp none).modTenant t (fun x => { x with state := .busy, longOp := some l })

/-- A tenant after its long operation: RUNNING again, or STOPPED where it had been (assumption log 26). A tenant that
drains keeps its state (R274). -/
def Tenant.endLong (t : Tenant) : Tenant :=
  { t with
    longOp := none
    state := if t.state = .busy then (if t.longOp.elim false (·.wasStopped) then .stopped else .running) else t.state }

/-- The target tenant of a long operation: bits 5:0 from the management function, else the issuer itself. -/
def longTarget (d : Desc) : Nat := if d.fn ≥ 62 then d.bitsOf 5 0 else d.fn

/-- A management request that acts on a busy tenant is answered BUSY with its progress (R129). -/
def State.refuseBusy (s : State) (id t : Nat) : State :=
  let b := s.busyParam t
  b.2.answerBusy id b.1

/-- What the target's state makes of a long operation (R129, R134), before the operation's own requirements. -/
def State.longGate (s : State) (d : Desc) (go : Nat → State → State) : State :=
  let t := longTarget d
  match (s.tenant t).state with
  | .absent => s.refuse d.id .range 0
  | .busy => s.refuseBusy d.id t
  | .draining | .squashing | .removing => s.refuse d.id .resetting 0
  | .wedged => s.refuse d.id .wedged 0
  | .stopped | .running => go t s

/-! ### FORMAT_TENANT -/

/-- Every key of a tenant made invisible in one journal record, which names the tenant and takes no sequence number (R32, R130). -/
def State.removeKeys (s : State) (t : Nat) (keys : List Bytes) : State :=
  (s.modTenant t (fun x => { x with recs := x.recs.filter (fun r => !keys.contains r.key) })).addRecord (s.bareRecord t) []

/-- FORMAT_TENANT (R54, R130). -/
def State.serveFormat (s : State) (d : Desc) : State :=
  s.longGate d (fun t s =>
    if s.replicated t then s.refuse d.id .stateForbids 0
    else
      let keys := (s.tenant t).recs.map (·.key)
      let recs := (s.tenant t).recs
      let s := s.beginLong d.id t 0x60 .format keys.length
      ((s.removeKeys t keys).modTenant t Tenant.freeLeases).queueSweep t t recs)

/-- FORMAT_TENANT. -/
def execFormatTenant (id : Nat) (s : State) : Host.Outcome State Fault Refusal :=
  .next (s.serve id 0x60 (fun d s => s.serveFormat d))

/-! ### REKEY -/

/-- REKEY (R130, R381): a pending data key is needed. -/
def State.serveRekey (s : State) (d : Desc) : State :=
  s.longGate d (fun t s =>
    if (s.secure.genIn t .pending).isNone then s.refuse d.id .stateForbids 0
    else s.beginLong d.id t 0x61 .rekey 0)

/-- REKEY. -/
def execRekey (id : Nat) (s : State) : Host.Outcome State Fault Refusal :=
  .next (s.serve id 0x61 (fun d s => s.serveRekey d))

/-- The generations of a tenant's keys once REKEY has completed (R381): the pending one is current; an older one that
no value names is erased, and one still named is retired. -/
def rekeyed (t gen : Nat) (named : List Nat) (tack : List KeySlot) : List KeySlot :=
  (tack.filter (fun k => !(k.kind == .data && k.fn == t && k.gen != gen && !named.contains k.gen))).map (fun k =>
    if k.kind = .data && k.fn = t then { k with gstate := if k.gen = gen then .current else .retired } else k)

/-- Every readable value of a tenant is encrypted again under the pending generation (R381). -/
def State.finishRekey (s : State) (t : Nat) : State :=
  match s.secure.genIn t .pending with
  | none => s
  | some k =>
    let old := (s.tenant t).recs.filter (fun r => r.gen != k.gen && r.lost == .no)
    let s := old.foldl (fun s r => s.sealUp t r) s
    let named := ((s.tenant t).recs.map (·.gen)).eraseDups
    { s with secure := { s.secure with tack := rekeyed t k.gen named s.secure.tack } }

/-- Values that stay under older generations. -/
def State.leftBehind (s : State) (t : Nat) : Nat :=
  match s.secure.genIn t .current with
  | some k => ((s.tenant t).recs.filter (fun r => r.gen != k.gen)).length
  | none => 0

/-! ### COMPACT -/

/-- COMPACT (R130): it changes nothing that can be seen; its rewrites are the tenant's background work (R279). -/
def State.serveCompact (s : State) (d : Desc) : State :=
  s.longGate d (fun t s => (s.beginLong d.id t 0x62 .compact 0).queueSweep t t (s.tenant t).recs)

/-- COMPACT. -/
def execCompact (id : Nat) (s : State) : Host.Outcome State Fault Refusal :=
  .next (s.serve id 0x62 (fun d s => s.serveCompact d))

end Sys2Proof.Machine
end

