-- ==== Sys2Proof/Machine/Search.lean ====
section
/-! DEFINITION. Pattern search (9.4 to 9.7): automaton images, pattern slots and their loads, SCAN and SCAN_COUNT, the
parity of tile memory, and the end of a long operation (R128). -/
namespace Sys2Proof.Machine
open Sys2Proof

/-! ### Automaton images (R347, R348, R354) -/

/-- The number of states. -/
def patStates (b : Bytes) : Nat := u16 b 2

/-- The number of byte classes. -/
def patClasses (b : Bytes) : Nat := byteAt b 4

/-- The transition entry of a state and a column. -/
def patEntry (b : Bytes) (state col : Nat) : Nat := u16 b (272 + 2 * (state * (patClasses b + 1) + col))

/-- An image is valid (R348). -/
def patternOk (b : Bytes) : Bool :=
  let n := patStates b
  let c := patClasses b
  272 ≤ b.length && byteAt b 0 == 3 && byteAt b 1 == 0 && 1 ≤ n && n ≤ 4096 && 1 ≤ c && c ≤ 64 && byteAt b 5 == 0 &&
    u16 b 6 < n && u32 b 12 == 0 && b.length == 272 + 2 * n * (c + 1) && b.length ≤ 65536 &&
    u32 b 8 == crc32c (b.drop 16) && (slice b 16 256).all (fun x => x.toNat < c) &&
    (List.range (n * (c + 1))).all (fun i =>
      u16 b (272 + 2 * i) % 4096 < n && bits (u16 b (272 + 2 * i)) 14 12 == 0) &&
    !bit (patEntry b (u16 b 6) c) 15

/-- A stream from a state: the offset of the first match, counted from `i` (R354). -/
def patRun (b : Bytes) : (state i : Nat) → Bytes → Option Nat
  | state, i, [] => if i ≠ 0 && bit (patEntry b state (patClasses b)) 15 then some (i - 1) else none
  | state, i, x :: rest =>
    let e := patEntry b state (byteAt b (16 + x.toNat))
    if bit e 15 then some i else patRun b (e % 4096) (i + 1) rest

/-- The first match of a value. -/
def patMatch (b value : Bytes) : Option Nat := patRun b (u16 b 6) 0 value

/-! ### Slots and banks (R349, R350) -/

/-- A drive slot. -/
def State.slot (s : State) (n : Nat) : PatSlot := s.awl.slots.getD n PatSlot.empty

/-- The state with one drive slot changed. -/
def State.modSlot (s : State) (n : Nat) (f : PatSlot → PatSlot) : State :=
  { s with awl := { s.awl with slots := s.awl.slots.modify n f } }

/-- A bank. -/
def PatSlot.bank (p : PatSlot) (b : Bool) : Option Bytes := if b then p.bank1 else p.bank0

/-- A bank written. -/
def PatSlot.setBank (p : PatSlot) (b : Bool) (v : Option Bytes) : PatSlot :=
  if b then { p with bank1 := v } else { p with bank0 := v }

/-- The drive slot of a tenant's slot. -/
def State.driveSlot (s : State) (t n : Nat) : Nat := (s.tenant t).pslots.getD n 64

/-- A running scan binds a bank of a drive slot. -/
def State.bankBound (s : State) (n : Nat) (b : Bool) : Bool := s.awl.scans.any (fun c => c.slot == n && c.bank == some b)

/-- The running scan of a descriptor. -/
def State.scanOf (s : State) (id : Nat) : Option Scan := s.awl.scans.find? (fun c => c.desc == id)

/-- The state with one scan changed. -/
def State.modScan (s : State) (id : Nat) (f : Scan → Scan) : State :=
  { s with awl := { s.awl with scans := s.awl.scans.map (fun c => if c.desc = id then f c else c) } }

/-- The state without a scan: its bank is released. -/
def State.dropScan (s : State) (id : Nat) : State :=
  { s with awl := { s.awl with scans := s.awl.scans.filter (fun c => c.desc != id) } }

/-! ### How a scan ends (R122, R123) -/

/-- The parameter of a SCAN that found no match. -/
def noMatch : Nat := 2 ^ 64 - 1

/-- The count of a SCAN_COUNT, or the no-match parameter of a SCAN. -/
def Scan.param (c : Scan) : Nat := if c.count then c.matched else noMatch

/-- A scan's completion (R123): a ranged scan answers at once, and a WHOLE scan at LONG_OPERATION_COMPLETE. -/
def State.endScan (s : State) (c : Scan) (st : Status) (param : Nat) (key : Bytes) : State :=
  if c.mode = 2 then s.modScan c.desc (fun c => { c with ended := some (st, param, key) })
  else
    let opts := (if c.skipped = 0 then [] else tlv 0x0C (toBe 4 c.skipped)) ++
      replyFlags (s.span.apart && s.replicated c.tenant) false
    (s.answer c.desc st param opts key []).dropScan c.desc

/-- The next record of a scan (R60, R61, R121): WHOLE visits every extent; PREFIX and FROM stop at the edge of the
extent in which they started. -/
def State.scanNext (s : State) (c : Scan) : Stop :=
  let coll := (s.tenant c.tenant).coll
  let ahead (k : Bytes) : Bool := match c.pos with
    | some p => cmpKeys coll k p == .gt
    | none => true
  if c.mode = 2 then
    match ((s.tenant c.tenant).recs.find? (fun r => ahead r.key)) with
    | some r => .at r.key
    | none => .endOfRange
  else
    let cand (k : Bytes) : Bool := ahead k &&
      (if c.mode = 0 then hasPrefix c.start k else cmpKeys coll k c.start != .lt)
    s.stepKeys c.tenant true (fun lo => some lo == (s.extentOf c.tenant c.start).map (·.1)) cand
      (fun e => c.mode != 0 || meetsPrefix coll c.start e)

/-- The resume key of a scan that stops before its range ends: the next key that it would read. -/
def State.scanResume (s : State) (c : Scan) : Bytes :=
  match s.scanNext c with
  | .at k => k
  | .edge r => r.getD []
  | .endOfRange => []

/-- A record's value taken by a scan whose automaton is `img`: a match ends a SCAN. -/
def scanValue (c : Scan) (img : Bytes) (r : Rec) : Scan × Option (Nat × Bytes) :=
  let c := { c with pos := some r.key, read := c.read + 1, floor := none }
  match patMatch img r.value with
  | some off => if c.count then ({ c with matched := c.matched + 1 }, none) else (c, some (off, r.key))
  | none => (c, none)

/-- A record that cannot be read is skipped and counted (R123). -/
def Scan.skip (c : Scan) (key : Bytes) : Scan :=
  { c with pos := some key, read := c.read + 1, skipped := c.skipped + 1, floor := none }

/-- A scan goes on over the records that are at hand, to its stop or to a record that must be read from flash (R353,
R355, R356). `fuel` bounds the records taken. A scan that has read SCAN_LIMIT records stops with PARTIAL_LIMIT where a record of its
range and extent remains; with none left it ends as the range or the extent does, and an extent edge with no visible key beyond it
ends it with DONE (DESIGN CHOICE, assumption log 114). -/
def State.scanOn : Nat → State → Nat → State
  | 0, s, _ => s
  | fuel + 1, s, id =>
    match s.scanOf id with
    | none => s
    | some c =>
      match c.bank.bind (fun b => (s.slot c.slot).bank b) with
      | none => s
      | some img =>
        if c.ended.isSome then s
        else match s.scanNext c with
          | .endOfRange => s.endScan c .done c.param []
          | .edge none => s.endScan c .done c.param []
          | .edge (some k) => s.endScan c .partialEdge c.param k
          | .at k =>
            if c.mode ≠ 2 && c.limit ≤ c.read then s.endScan c .partialLimit c.param k
            else if s.span.fencedAt (s.keySet k) then s.endScan c .fenced c.param k
            else if s.floorWaits k c.floor then s
            else match (s.tenant c.tenant).find k with
              | none => s
              | some r =>
                if r.lost ≠ .no then State.scanOn fuel (s.modScan id (·.skip k)) id
                else if r.cached then
                  match scanValue c img r with
                  | (c', some (off, key)) => (s.modScan id (fun _ => c')).endScan c' .done off key
                  | (c', none) => State.scanOn fuel (s.modScan id (fun _ => c')) id
                else s.beginRead id c.tenant r .scanning

/-- A scan goes on. -/
def State.scanRun (s : State) (id : Nat) : State :=
  match s.scanOf id with
  | some c => s.scanOn ((s.tenant c.tenant).recs.length + 1) id
  | none => s

/-! ### SCAN and SCAN_COUNT -/

/-- Ticks until the earliest of some scans reaches its tick limit, plus 20; 62,520 when all are WHOLE (R350, R358). -/
def State.scanRetry (s : State) (cs : List Scan) : Nat :=
  match (cs.filter (fun c => c.mode != 2)).map (fun c => c.began + 62500 - s.tick + 20) with
  | [] => 62520
  | x :: xs => xs.foldl min x

/-- The bound of R358 or R350 that a scan meets, as its retry-after count. -/
def State.scanBound (s : State) (fn slot : Nat) (loads : Bool) : Option Nat :=
  let own := s.awl.scans.filter (fun c => c.tenant == fn)
  let p := s.slot slot
  let need := if p.load.length % 2 = 0 then !p.current else p.current
  let bound := s.awl.scans.filter (fun c => c.slot == slot && (c.bank == some need || c.bank.isNone))
  if own.length ≥ 8 then some (s.scanRetry own)
  else if s.awl.scans.length ≥ 128 then some (s.scanRetry s.awl.scans)
  else if loads && (s.bankBound slot need || 2 ≤ p.load.length) then some (s.scanRetry bound)
  else none

/-- What the range of a scan meets (R38, R46, R59, R201): the start key's gate; for WHOLE only a floor on a member that
is apart from the span. -/
def State.scanGate (s : State) (d : Desc) : Option (Status × Nat) :=
  if d.bitsOf 1 0 = 2 then
    if (d.opt 0x08).isSome && s.span.apart && s.replicated d.fn then some (.outsideSpan, 0) else none
  else match s.readGate d.fn d.key (d.opt 0x08) with
    | some (.fenced, _) => none
    | x => x

/-- A scan that its checks and bounds have passed begins (R122, R128). -/
def State.beginScan (s : State) (d : Desc) (n : Nat) (count : Bool) : State :=
  let p := s.slot n
  let loads := !d.value.isEmpty
  let mode := d.bitsOf 1 0
  let c : Scan :=
    { desc := d.id, tenant := d.fn, count := count, mode := mode, slot := n,
      bank := if loads then none else some p.current, start := d.key, pos := none,
      limit := (d.opt 0x0B).getD 65536, read := 0, skipped := 0, matched := 0,
      began := d.first.getD s.tick, floor := d.opt 0x08, ended := none }
  let s := { s with awl := { s.awl with scans := s.awl.scans ++ [c] } }
  let s := if loads then s.modSlot n (fun p => { p with load := p.load ++ [(d.id, d.value)] }) else s
  let s := if mode = 2 then s.beginLong d.id d.fn d.op .wholeScan 0 else s.accept d.id .scanning
  s.scanRun d.id

/-- SCAN and SCAN_COUNT past their gate (R121, R348, R350, R358). -/
def State.startScan (s : State) (d : Desc) (count : Bool) : State :=
  let n := s.driveSlot d.fn (d.bitsOf 11 8)
  let p := s.slot n
  let loads := !d.value.isEmpty
  if loads && !patternOk d.value then s.refuse d.id .patternInvalid 0
  else if !loads && (p.bank p.current).isNone then s.refuse d.id .patternAbsent 0
  else match s.scanBound d.fn n loads with
    | some retry => (s.bump 0x00050140).pushBack d.id retry
    | none => s.beginScan d n count

/-- SCAN and SCAN_COUNT served (R121, R122, R348, R350, R358). A WHOLE scan is a long operation: its tenant runs one at a time
(R128, R129). -/
def State.serveScan (s : State) (d : Desc) (count : Bool) : State :=
  if s.rebuilding then s.pushBack d.id 125
  else
    let s := s.looked
    match s.scanGate d with
    | some (st, p) => s.refuse d.id st p
    | none =>
      if d.bitsOf 1 0 = 2 then s.longGate d (fun _ s => s.startScan d count) else s.startScan d count

/-- SCAN. -/
def execScan (id : Nat) (s : State) : Host.Outcome State Fault Refusal :=
  .next (s.serve id 0x30 (fun d s => s.serveScan d false))

/-- SCAN_COUNT. -/
def execScanCount (id : Nat) (s : State) : Host.Outcome State Fault Refusal :=
  .next (s.serve id 0x31 (fun d s => s.serveScan d true))

/-- SCAN_TIME_LIMIT (R122): 62,500 ticks after its first reply a ranged scan stops with PARTIAL_LIMIT. -/
def execScanTimeLimit (id : Nat) (s : State) : Host.Outcome State Fault Refusal :=
  match s.scanOf id with
  | some c =>
    if c.mode ≠ 2 && c.began + 62500 ≤ s.tick then .next (s.endScan c .partialLimit c.param (s.scanResume c))
    else .next s
  | none => .next s

/-! ### Loads (R350 to R352) -/

/-- Lanes that a running scan's transfer holds: a lane serves the channel of its number (Table 9.1). -/
def State.boundLane (s : State) (lane : Nat) : Option Nat :=
  let c := s.chan lane
  (c.owner.bind (fun r => (c.req r).flows.head?)).bind (fun f =>
    f.desc.bind (fun id => (s.scanOf id).map (·.tenant)))

/-- The lane that a load takes in a tile: the lowest with no stream bound, or lane 3 (R351). -/
def State.takenLane (s : State) (tile : Nat) : Nat :=
  4 * tile + ((List.range 4).find? (fun k => (s.boundLane (4 * tile + k)).isNone)).getD 3

/-- PATTERN_LOAD (R350, R351): the oldest waiting image is written to the bank that is not current, which becomes
current, and its scan binds it. A load runs in a tick after that in which its request's last segment arrived, and one in a tick
(assumption log 138). -/
def execPatternLoad (slot : Nat) (s : State) : Host.Outcome State Fault Refusal :=
  let p := s.slot slot
  match p.load with
  | [] => .next s
  | (id, img) :: rest =>
    if s.bankBound slot (!p.current) || (s.desc id).elim false (fun d => s.tick ≤ d.arrival) ||
        (s.awl.stolen.1 == s.tick && !s.awl.stolen.2.isEmpty) then .next s
    else
      let s := s.modSlot slot (fun p => { p.setBank (!p.current) (some img) with current := !p.current, load := rest })
      let s := s.modScan id (fun c => { c with bank := some (!p.current) })
      let s := (s.bump 0x00050128).bump 0x00050130
      let s := { s with awl := { s.awl with stolen := (s.tick, (List.range 4).map s.takenLane) } }
      .next (s.scanRun id)

/-- PATTERN_PERSIST (R352): the loaded image stands in the configuration records. A bank emptied by a parity error (R361) holds none,
and the image last persisted stays. -/
def execPatternPersist (slot : Nat) (s : State) : Host.Outcome State Fault Refusal :=
  .next (s.modSlot slot (fun p => { p with persisted := (p.bank p.current).orElse (fun _ => p.persisted) }))

/-! ### The end of a long operation (R128, R130, R381) -/

/-- The completion of a long operation to its issuer, if it has one (R132). -/
def State.answerLong (s : State) (l : LongOp) (st : Status) (param : Nat) (key : Bytes) : State :=
  match l.issuer with
  | some id => s.answer id st param [] key []
  | none => s

/-- A WHOLE scan that has run to its end is answered, and its bank released. -/
def State.finishWhole (s : State) (l : LongOp) (t : Nat) : State :=
  match l.issuer.bind s.scanOf with
  | none => s
  | some c =>
    match c.ended with
    | none => s
    | some (st, param, key) =>
      let opts := (if c.skipped = 0 then [] else tlv 0x0C (toBe 4 c.skipped)) ++
        replyFlags (s.span.apart && s.replicated c.tenant) false
      ((s.answer c.desc st param opts key []).dropScan c.desc).modTenant t Tenant.endLong

/-- LONG_OPERATION_COMPLETE. -/
def execLongOperationComplete (tenant : Nat) (s : State) : Host.Outcome State Fault Refusal :=
  match (s.tenant tenant).longOp with
  | none => .next s
  | some l =>
    match l.kind with
    | .format => .next ((s.answerLong l .done l.count []).modTenant tenant Tenant.endLong)
    | .rekey =>
      let s := s.finishRekey tenant
      .next ((s.answerLong l .done (s.leftBehind tenant) []).modTenant tenant Tenant.endLong)
    | .compact => .next ((s.answerLong l .done 0 []).modTenant tenant Tenant.endLong)
    | .wholeScan => .next (s.finishWhole l tenant)

/-! ### Parity (R360, R361) -/

/-- A parity error in a rule entry (R360): the entry is rewritten from the shadow; where that is lost as well, the table is rebuilt
within 125 ticks. -/
def State.rulePerr (s : State) (shadowGood : Bool) : State :=
  if shadowGood then s.bump 0x00050108
  else
    let s := { s with awl := { s.awl with rebuildUntil := s.tick + 125 } }
    s.raise 0x8305 0 0 0

/-- RULE_PARITY_ERROR. -/
def execRuleParityError (_entry : Nat) (shadowGood : Bool) (s : State) : Host.Outcome State Fault Refusal :=
  .next (s.rulePerr shadowGood)

/-- Scans bound to a lost bank stop with PATTERN_ABSENT (R361); a WHOLE scan's tenant leaves BUSY. -/
def State.stopScans (s : State) (slot : Nat) (b : Bool) : State :=
  (s.awl.scans.filter (fun c => c.slot == slot && c.bank == some b)).foldl (fun s c =>
    let s := (s.refuse c.desc .patternAbsent 0).dropScan c.desc
    if c.mode = 2 then s.modTenant c.tenant Tenant.endLong else s) s

/-- A word of an automaton bank with a parity error (R361). -/
def State.automatonParity (s : State) (slot : Nat) (bank otherTileGood : Bool) : State :=
  if otherTileGood then s.bump 0x00050110
  else
    let owner := (s.slot slot).owner.getD (0, 0)
    let s := (s.stopScans slot bank).modSlot slot (fun p => p.setBank bank none)
    (s.bump 0x00050118).raise 0x8306 owner.1 owner.2 0

/-- AUTOMATON_PARITY_ERROR. -/
def execAutomatonParityError (slot : Nat) (bank otherTileGood : Bool) (s : State) : Host.Outcome State Fault Refusal :=
  .next (s.automatonParity slot bank otherTileGood)

end Sys2Proof.Machine
end

