-- ==== Sys2Proof/Machine/ReadPath.lean ====
section
/-! DEFINITION. The end of a flash read: the retry ladder (R308), lost values (R309, R310), what the block learns (R319,
R326), and the reads that a version floor held back (R46). -/
namespace Sys2Proof.Machine
open Sys2Proof

/-! ### Blocks (R318, R319, R326) -/

/-- A block as the model first meets it: pSLC or TLC as the fixed set has it (R293), programmed now, with tracked offsets of zero
(assumption log 27). -/
def Media.freshBlock (x : Media) (id : BlockId) : Block :=
  { id := id, pslc := Config.pslcBlock id, agedAt := x.age, reads := 0, offsets := List.replicate 7 0, limit := false,
    limitBefore := false, cycles := 0, errDue := false, erased := false, lastPatrol := none }

/-- A block of the drive. -/
def Media.block (x : Media) (id : BlockId) : Block := (x.blocks.find? (fun b => b.id == id)).getD (x.freshBlock id)

/-- The media with one block changed. -/
def Media.modBlock (x : Media) (id : BlockId) (f : Block → Block) : Media :=
  { x with blocks := x.blocks.filter (fun b => b.id != id) ++ [f (x.block id)] }

/-- The mean TLC cycle count times 1,000 (R328, Table 8.8); the number of TLC blocks is the drive's (assumption log 45). -/
def Media.meanCycles (x : Media) : Nat :=
  (x.blocks.filter (fun b => !b.pslc)).foldl (fun n b => n + b.cycles) 0 * 1000 / Config.tlcBlocks

/-- A block is retired (R326): it leaves the pool, and the lifetime record counts it (Table 8.8). -/
def State.retireBlock (s : State) (id : BlockId) : State :=
  ({ s with media := { s.media with
      blocks := s.media.blocks.filter (fun b => b.id != id)
      retiredBlocks := s.media.retiredBlocks ++ [id]
      life := s.media.life.modify 4 (· + 1) } }).bumpMed 0x180

/-- Offsets held to their range of -31 to +31 (R326). -/
def clampOffset (n : Int) : Int := max (-31) (min 31 n)

/-- New offsets of a block. One that reaches ±31 sets RREF_LIMIT, raises the event and queues the block for refresh
(R326). -/
def State.setOffsets (s : State) (id : BlockId) (f : Int → Int) : State :=
  let old := s.media.block id
  let offs := old.offsets.map (fun n => clampOffset (f n))
  let hit := offs.any (fun n => n == 31 || n == -31)
  let s := { s with media := s.media.modBlock id (fun b => { b with
    offsets := offs
    limit := b.limit || hit
    errDue := b.errDue || hit }) }
  if hit && !old.limit then s.raise 0x8304 id.die 0 id.block else s

/-- The level shift of a ladder step (Table 8.3). -/
def ladderShift (n : Nat) : Int := if n = 1 then -4 else if n = 2 then 4 else if n = 3 then -8 else if n = 4 then 8 else 0

/-- What a read that ends at a ladder outcome counts (Table 8.9). -/
def State.ladderCounted (s : State) (o : ReadOutcome) : State :=
  match o with
  | .step n =>
    if n.val = 0 then s else if n.val ≤ 4 then s.bumpMed 0x148 else if n.val = 5 then s.bumpMed 0x150 else s.bumpMed 0x158
  | .lost => s.bumpMed 0x160
  | .tagFail => s

/-- What a block learns from a read of it: one more read, the offsets of a step that decoded, and a refresh due from
step 2 on (R319, R326). -/
def State.blockRead (s : State) (id : BlockId) (o : ReadOutcome) : State :=
  let s := { s with media := s.media.modBlock id (fun b => { b with reads := b.reads + 1 }) }
  match o with
  | .step n =>
    let s := if 1 ≤ n.val && n.val ≤ 4 then s.setOffsets id (· + ladderShift n.val) else s
    if 2 ≤ n.val then { s with media := s.media.modBlock id (fun b => { b with errDue := true }) } else s
  | _ => s

/-! ### Lost values (R309, R310) -/

/-- A value, as tenant, key and version, still stands under its key and is not flagged lost (R309): a later write has not
replaced it. -/
def State.stands (s : State) (v : Nat × Bytes × Nat) : Bool :=
  ((s.tenant v.1).find v.2.1).elim false (fun r => r.version == v.2.2 && r.lost == .no)

/-- A value flagged lost, and counted in the lifetime record; in a set the member fences it (R309, R310). -/
def State.flagLost (s : State) (v : Nat × Bytes × Nat) (why : Lost) : State :=
  let s := s.modTenant v.1 (fun x => x.modRec v.2.1 (fun r => { r with lost := why, cached := false }))
  { s with media := { s.media with life := s.media.life.modify 19 (· + 1) } }.fence (s.keySet v.2.1)

/-- A version of a key's value is lost: the event, the flag and the count, where that version still stands (R309, R310). -/
def State.loseValue (s : State) (v : Nat × Bytes × Nat) (why : Lost) : State :=
  if s.stands v then (s.raise 0x8301 v.1 0 0).flagLost v why else s

/-- A codeword is lost (R309): one VALUE_LOST for each tenant whose values stand in it unflagged, and the flag and the count of
each of those values; a set's range is fenced. -/
def State.loseCodeword (s : State) (values : List (Nat × Bytes × Nat)) : State :=
  let lost := values.eraseDups.filter s.stands
  let s := (lost.map (·.1)).eraseDups.foldl (fun s t => s.raise 0x8301 t 0 0) s
  lost.foldl (fun s v => s.flagLost v .uncorrectable) s

/-- The record that a read has fetched: its codeword lost, its tag failed, or decrypted, into the cache where that version
still stands (R309, R310, R379). `others` are the other values of the codeword. -/
def State.recordRead (s : State) (t : Nat) (r : Rec) (o : ReadOutcome) (others : List (Nat × Bytes × Nat)) : State :=
  match o with
  | .lost => s.loseCodeword ((t, r.key, r.version) :: others)
  | .tagFail => (s.bumpTkp t 0x410).loseValue (t, r.key, r.version) .integrity
  | .step _ => (s.bumpTkp t 0x408).modTenant t (fun x =>
      x.modRec r.key (fun y => { y with cached := y.cached || y.version == r.version }))

/-! ### What waited for the read -/

/-- The entry of the order that a descriptor's request stands in. -/
def State.entryOf (s : State) (id : Nat) : Option Entry := s.ledger.order.find? (fun e => e.desc == some id)

/-- One record fewer to be read for an entry. -/
def State.readDone (s : State) (id : Nat) (key : Bytes) : State :=
  { s with ledger := { s.ledger with
    order := s.ledger.order.map (fun e => if e.desc = some id then { e with unread := e.unread.erase key } else e) } }

/-- The record that a descriptor's flash read fetches, as it stood when the read began. -/
def Desc.readTarget (d : Desc) : Option Rec :=
  match d.phase with
  | .reading _ | .ordered | .scanning | .longOp => d.fetch
  | _ => none

/-- The value of a version of a record is already flagged lost, and why: a codeword is lost once (R309). -/
def State.lostAlready (s : State) (t : Nat) (r : Rec) : Option Lost :=
  (((s.tenant t).find r.key).filter (fun y => y.version == r.version && y.lost != .no)).map (·.lost)

/-- What a read that ends at an outcome says of the value. -/
def outcomeLost (o : ReadOutcome) : Lost :=
  match o with
  | .step _ => .no
  | .lost => .uncorrectable
  | .tagFail => .integrity

/-- The request goes on with the record that was read. A read answers the version that stood when it was served, though a
later write has replaced or removed it meanwhile (R45, 1.4.1). -/
def State.afterRead (s : State) (d : Desc) (r : Rec) (lost : Lost) : State :=
  match d.phase with
  | .reading floored => if lost = .no then s.deliver d r floored else s.deliverLost d r.key lost
  | .ordered =>
    let s := s.readDone d.id r.key
    match s.entryOf d.id with
    | some e => (s.fetchUnread d.id e).settled
    | none => s
  | _ => s.scanRun d.id

/-- A flash read ends for a descriptor: its transfer leaves the cinch and its unit drops its reference (R276). A
squashed descriptor gets nothing (R275). -/
def State.readComplete (s : State) (id : Nat) (o : ReadOutcome) (blk : BlockId) (others : List (Nat × Bytes × Nat)) :
    State :=
  match s.desc id with
  | none => s
  | some d =>
    if d.refs = 0 then s
    else
      let s := ((s.dropFlows id).modDesc id (fun d => { d with refs := d.refs - 1, fetch := none })).blockRead blk o
      match d.readTarget with
      | some r =>
        match s.lostAlready d.fn r with
        | some why => s.afterRead d r why
        | none => ((s.ladderCounted o).recordRead d.fn r o others).afterRead d r (outcomeLost o)
      | none => { s.ladderCounted o with descs := s.descs.filter (fun x => !(x.tagFree && x.refs == 0)) }



/-! ### Version floors that a commit reaches (R46) -/

/-- The record that a waiting GET_GENERIC or step has found, whose own set the floor is judged on as well (R46). -/
def State.foundKey (s : State) (d : Desc) : Option Bytes :=
  if d.op = 0x02 then
    if d.bitsOf 0 0 = 0 then s.prefixLeast d.fn d.key
    else match s.geStep d.fn d.key with
      | .at k => some k
      | _ => none
  else if d.isStep then (s.stepCursor d true).bind (fun c => match s.browseStep d.fn c (d.op == 0x11) with
    | .at k => some k
    | _ => none)
  else none

/-- A read still waits for its floor. -/
def State.stillWaits (s : State) (d : Desc) : Bool :=
  (s.readKey d true).elim false (fun k => s.floorWaits k (d.opt 0x08)) ||
    (s.foundKey d).elim false (fun k => s.floorWaits k (d.opt 0x08))

/-- The reads and scans that wait for a floor go on where it has been reached. -/
def State.resumeFloors (s : State) : State :=
  let s := (s.descs.filter (fun d => d.phase == .floorWait)).foldl (fun s d =>
    if s.stillWaits d then s else s.serveRead d true) s
  (s.awl.scans.filter (fun c => c.floor.isSome)).foldl (fun s c => s.scanRun c.desc) s

/-- The time that a floor may take has passed: one rotation and 2 ticks from the first reply. -/
def State.floorDue (s : State) (d : Desc) : Bool := d.first.elim false (fun t => t + s.span.rotationTicks + 2 ≤ s.tick)

/-- A scan waits for its floor at its first record. -/
def State.scanFloorWait (s : State) (c : Scan) : Bool :=
  match s.scanNext c with
  | .at k => c.ended.isNone && c.bank.isSome && s.floorWaits k c.floor
  | _ => false

/-- FLOOR_TIMEOUT (R46): the floor is still not reached. -/
def execFloorTimeout (id : Nat) (s : State) : Host.Outcome State Fault Refusal :=
  match s.desc id with
  | some d =>
    if !s.floorDue d then .next s
    else if d.phase = .floorWait then .next (s.refuse id .fenced 0)
    else match s.scanOf id with
      | some c => if s.scanFloorWait c then .next (s.endScan c .fenced c.param (s.scanResume c)) else .next s
      | none => .next s
  | none => .next s

end Sys2Proof.Machine
end

