-- ==== Sys2Proof/Machine/Tenants.lean ====
section
/-! DEFINITION. Tenant functions (chapter 7): creating, resizing, stopping and removing, and the function reset with its
drain, squash and wedge. -/
namespace Sys2Proof.Machine
open Sys2Proof

/-! ### Metering periods (R179, R180) -/

/-- The closing tick of a period that opens at a tick and wall time (R180): the first boundary more than half a period
later. -/
def closingTick (minutes tick wall : Nat) : Nat :=
  let len := minutes * 60000000
  let b := ((wall + len / 2) / len + 1) * len
  tick + ceilDiv (b - wall) 8

/-- A period opened (R179, R180). -/
def Period.opened (number minutes tick wall : Nat) : Period :=
  { number := number, openTick := tick, closeTick := closingTick minutes tick wall, stepBack := false, requests := 0,
    bytesRead := 0, bytesWritten := 0, busy := 0 }

/-! ### Squashing a descriptor (R275) -/

/-- The local order past its commit point: the front entry's journal record has begun (R275). -/
def State.recordBegun (s : State) (id : Nat) : Bool := s.frontEffects.elim false (fun x => x.1.desc == some id)

/-- A descriptor past its commit point, or one whose request has had its answer, is not squashed (R275). -/
def State.pastCommit (s : State) (d : Desc) : Bool :=
  match d.phase with
  | .ordered =>
    if (s.entryOf d.id).isSome then s.recordBegun d.id
    else !s.span.unsent.any (fun e => e.desc == some d.id)
  | .closing => d.tagFree || writeOps.contains d.op || d.op == 0x22 || d.op ≥ 0x60
  | .squashed => true
  | _ => false

/-- The frames of a descriptor's reply that are still queued. -/
def State.queuedFrames (s : State) (d : Desc) : List OutFrame :=
  let p := s.port d.port
  (p.short ++ p.bulkFirst ++ p.bulk).filter (fun f => f.owner == some d.id)

/-- A port without the frames of a descriptor. -/
def PortState.dropFrames (p : PortState) (id : Nat) : PortState :=
  let keep (l : List OutFrame) : List OutFrame := l.filter (fun f => f.owner != some id)
  { p with short := keep p.short, bulkFirst := keep p.bulkFirst, bulk := keep p.bulk }

/-- Segments of a descriptor's reply that have left. Before a value reply has been formed there are none. -/
def State.sentSegments (s : State) (d : Desc) : Nat :=
  match (s.queuedFrames d).getLast? with
  | some f => if d.phase = .closing then f.segCount - (s.queuedFrames d).length else 0
  | none => 0

/-- The local order without the entry of a descriptor, and the tree run of that entry given up. -/
def Ledger.withdraw (x : Ledger) (id : Nat) : Ledger :=
  let front := x.order.head?.elim false (fun e => e.desc == some id)
  { x with order := x.order.filter (fun e => e.desc != some id), tree := if front then none else x.tree }

/-- A transfer of a descriptor still waits for, or holds, a channel. -/
def State.inCinch (s : State) (id : Nat) : Bool :=
  s.cinch.chans.any (fun c => c.reqs.any (fun q => q.flows.any (fun f => f.desc == some id)))

/-- The transfers of a descriptor withdrawn from the cinch: a read that still has one to move returns its reference with the next
beat, before anything else happens in the tick; one whose transfers are over returns it when the read ends (R276). -/
def State.withdrawRead (s : State) (id : Nat) : State :=
  if s.inCinch id then (s.dropFlows id).modDesc id (fun d => { d with refs := 0, fetch := none }) else s

/-- A descriptor's work withdrawn from every queue (R275): cinch, scans, pattern loads, the order, the next batch. -/
def State.withdraw (s : State) (id : Nat) : State :=
  let s := (s.withdrawRead id).dropScan id
  let clear (p : PatSlot) : PatSlot := { p with load := p.load.filter (fun x => x.1 != id) }
  let s : State := { s with
    awl := { s.awl with slots := s.awl.slots.map clear }
    segs := s.segs.filter (fun g => g.id != id)
    ledger := s.ledger.withdraw id
    span := s.span.without (fun e => e.desc == some id) }
  s.settled

/-- The RESETTING completion of a request that is given up, in place of what it still had queued. Its parameter is the
number of segments already sent (R275). -/
def State.giveUp (s : State) (d : Desc) : State :=
  let sent := s.sentSegments d
  let first := d.first.isNone || (s.queuedFrames d).any (·.isFirst)
  let f := d.frame .resetting (sent % 256) [] [] [] 0 1 0 first true
  let s := (s.modPort d.port (fun p => p.dropFrames d.id)).withdraw d.id
  (s.modPort d.port (fun p => p.enqueue s.tick [f])).modDesc d.id (fun d => { d with
    phase := .squashed, first := some (d.first.getD s.tick), staging := 0 })

/-- A segmented transfer in flight. -/
def Phase.isTransfer : Phase → Bool
  | .transfer _ => true
  | _ => false

/-- A descriptor squashed (R275): counted, unless it is past its commit point. With it goes a transfer in flight (TNT_SEG_DISC). -/
def State.squash (s : State) (d : Desc) : State :=
  if s.pastCommit d then s
  else
    let s := (if d.phase.isTransfer then s.discardTransfer d .segment else s).giveUp d
    if d.fn < 32 then s.bumpTnt d.fn 0x120 else s

/-! ### The function reset (R273 to R277) -/

/-- Every segmented transfer of a tenant discarded with RESETTING (R273). -/
def State.dropTransfers (s : State) (t : Nat) : State :=
  (s.descs.filter (fun d => d.fn == t && d.phase.isTransfer)).foldl (fun s d =>
    (s.refuse d.id .resetting 0).discardTransfer d .resetting) s

/-- Every span entry of a tenant that has not been sent withdrawn with RESETTING (R273). -/
def State.dropUnsent (s : State) (t : Nat) : State :=
  let mine := s.span.unsent.filter (fun e => e.tenant == t)
  let s := { s with span := s.span.without (fun e => e.tenant == t) }
  mine.foldl (fun s e => s.replyEntry e .resetting 0 [] []) s

/-- The FUNCTION_RESETs of a tenant whose DONE is due complete (R274). -/
def State.finishDue (s : State) (t : Nat) : State :=
  ((s.tenant t).resetBy.foldl (fun s id => s.finish id 0) s).modTenant t (fun x => { x with resetBy := [] })

/-- A reset or a stop begins (R273). A DONE that is still due from the time when the tenant was STOPPED leaves first. -/
def State.beginReset (s : State) (t : Nat) (by_ : List Nat) (stopped : Bool) : State :=
  let s := (s.finishDue t).modTenant t (fun x => { x.freeLeases with
    state := .draining, endStopped := stopped, resetAt := s.tick, resetBy := by_, emptied := false })
  ((s.dropTransfers t).dropUnsent t).bumpTnt t 0x118

/-- FUNCTION_RESET (R134, 7.4.1). A STOPPED tenant holds no descriptor and stays STOPPED; another FUNCTION_RESET in the tick of the
first is accepted as well, and both complete in the next (assumption log 65). -/
def State.serveReset (s : State) (d : Desc) : State :=
  let t := d.bitsOf 5 0
  match (s.tenant t).state with
  | .absent => s.refuse d.id .range 0
  | .draining | .squashing | .removing => s.refuse d.id .resetting 0
  | .wedged => s.refuse d.id .wedged 0
  | .stopped =>
    let s := if (s.tenant t).resetAt < s.tick then s.finishDue t else s
    ((s.accept d.id .waiting).modTenant t (fun x => { x.freeLeases with
      resetAt := s.tick, resetBy := x.resetBy ++ [d.id] })).bumpTnt t 0x118
  | .running | .busy => (s.accept d.id .waiting).beginReset t [d.id] false

/-- FUNCTION_RESET. -/
def execFunctionReset (id : Nat) (s : State) : Host.Outcome State Fault Refusal :=
  .next (s.serve id 0x72 (fun d s => s.serveReset d))

/-- An interrupted REKEY (R131): some of the values stand under the pending generation, the others under their own. How
many of them it had reached is a free value (assumption log 3). -/
def State.partRekey (s : State) (t : Nat) : State :=
  match s.secure.genIn t .pending with
  | none => s
  | some k =>
    let old := (s.tenant t).recs.filter (fun r => r.gen != k.gen && r.lost == .no)
    let moved := old.take (Config.rekeyedSoFar s.free)
    moved.foldl (fun s r => s.sealUp t r) { s with free := s.free + 1 }

/-- The end of a tenant's long operation at the drain limit: the result of R131, with the issuer's RESETTING. It counts
in the page of the tenant that is reset, whoever issued it (assumption log 107). -/
def State.cutLong (s : State) (t : Nat) : State :=
  match (s.tenant t).longOp with
  | none => s
  | some l =>
    let s := match l.issuer.bind s.desc with
      | some d => if s.pastCommit d then s else (s.giveUp d).bumpTnt t 0x120
      | none => s
    let s := if l.kind = .rekey then s.partRekey t else s
    s.modTenant t (fun x => { x with longOp := none })

/-- The squash at tick r + 512 (R275). -/
def State.squashAll (s : State) (t : Nat) : State :=
  let s := s.modTenant t (fun x => { x with state := .squashing })
  let s := (s.takeBack t).cutLong t
  (s.descs.filter (fun d => d.fn == t)).foldl (fun s d => s.squash d) s

/-- DRAIN_LIMIT (R275). -/
def execDrainLimit (tenant : Nat) (s : State) : Host.Outcome State Fault Refusal :=
  let t := s.tenant tenant
  if t.state = .draining && t.resetAt + 512 ≤ s.tick && !s.drained tenant then .next (s.squashAll tenant) else .next s

/-- The end of a reset that completes: its issuer's DONE, and RUNNING or STOPPED (R274, R277). -/
def State.finishReset (s : State) (t : Nat) : State :=
  (s.finishDue t).modTenant t (fun x => { x with
    state := if x.endStopped then .stopped else .running
    endStopped := false
    emptied := false })

/-- RESET_COMPLETE (R274): the tick that follows the one in which the tenant came to hold no descriptor. A FUNCTION_RESET of a
STOPPED tenant is complete in its own tick (7.4.1), whatever has been asked of the tenant since. -/
def State.resetComplete (s : State) (t : Nat) : State :=
  let x := s.tenant t
  if x.state = .draining || x.state = .squashing then (if x.emptied then s.finishReset t else s)
  else if x.resetAt < s.tick then s.finishDue t else s

/-- RESET_COMPLETE. -/
def execResetComplete (tenant : Nat) (s : State) : Host.Outcome State Fault Refusal := .next (s.resetComplete tenant)

/-- A tenant's background transfers move to SCRUB (R276, R288). -/
def Channel.toScrub (c : Channel) (t : Nat) : Channel :=
  let own := (c.req t).flows.filter (fun f => f.desc.isNone)
  (c.modReq t (fun q => { q with flows := q.flows.filter (fun f => f.desc.isSome) })).modReq 33 (fun q =>
    { q with flows := q.flows ++ own })

/-- The background transfers of a tenant on every channel move to SCRUB (R288). -/
def State.toScrub (s : State) (t : Nat) : State :=
  { s with cinch := { s.cinch with chans := s.cinch.chans.map (Channel.toScrub · t) } }

/-- A tenant that still holds descriptors becomes WEDGED (R276). -/
def State.wedge (s : State) (t : Nat) : State :=
  let s := (s.tenant t).resetBy.foldl (fun s id => s.refuse id .wedged 0) s
  let s := (s.modTenant t (fun x => { x with state := .wedged, resetBy := [], emptied := false })).toScrub t
  (s.bump 0x00038100).raise 0x8201 t 0 0

/-- WEDGE_LIMIT (R276). -/
def execWedgeLimit (tenant : Nat) (s : State) : Host.Outcome State Fault Refusal :=
  let t := s.tenant tenant
  if t.state = .squashing && t.resetAt + 4096 ≤ s.tick && !s.drained tenant then .next (s.wedge tenant) else .next s

/-! ### Stop and start (R267) -/

/-- STOP written to TNT_CTRL. -/
def State.stopTenant (s : State) (t : Nat) : State :=
  match (s.tenant t).state with
  | .running | .busy => s.beginReset t [] true
  | .draining | .squashing => s.modTenant t (fun x => { x with endStopped := true })
  | _ => s

/-- START written to TNT_CTRL: a STOPPED tenant is RUNNING from the next tick. -/
def State.startTenant (s : State) (t : Nat) : State :=
  if (s.tenant t).state = .stopped then s.modTenant t (fun x => { x with startDue := true }) else s

/-- TENANT_STOP. -/
def execTenantStop (tenant : Nat) (s : State) : Host.Outcome State Fault Refusal := .next (s.stopTenant tenant)

/-- TENANT_START. -/
def execTenantStart (tenant : Nat) (s : State) : Host.Outcome State Fault Refusal := .next (s.startTenant tenant)

/-! ### Profiles (R136, R264, R266) -/

/-- The profile that a value carries (Table 3.9). -/
def profileOf (v : Bytes) : Profile :=
  { quota := u64 v 0, floor := u16 v 8, weight := u16 v 10, share := byteAt v 12, keyslots := byteAt v 13,
    authReq := bit (byteAt v 14) 0, closeOk := bit (byteAt v 14) 1, lease := u32 v 16 }

/-- A nonzero reserved byte of a profile (R136 step 4). -/
def profileReserved (v : Bytes) : Bool := byteAt v 15 != 0 || !allZero (slice v 20 12)

/-- The old profile with the rows that a mask selects taken from the new one (R136). -/
def Profile.take (old new : Profile) (mask : Nat) : Profile :=
  { quota := if bit mask 0 then new.quota else old.quota
    floor := if bit mask 1 then new.floor else old.floor
    weight := if bit mask 2 then new.weight else old.weight
    share := if bit mask 3 then new.share else old.share
    keyslots := if bit mask 4 then new.keyslots else old.keyslots
    authReq := if bit mask 5 then new.authReq else old.authReq
    closeOk := if bit mask 5 then new.closeOk else old.closeOk
    lease := if bit mask 6 then new.lease else old.lease }

/-- The profiles of all other created tenants, those being created among them. -/
def State.otherProfiles (s : State) (t : Nat) : List Profile :=
  ((s.created.filter (· != t)).map (fun u => (s.tenant u).profile)) ++
    ((s.creating.filter (fun c => c.1 != t)).map (fun c => c.2.2))

/-- The first row of Table 7.2 whose range or sum a profile does not keep, of the rows that a mask selects (R264).
`flags` is byte 14 of the value. -/
def State.profileFault (s : State) (t : Nat) (p : Profile) (flags mask : Nat) : Option Nat :=
  let others := s.otherProfiles t
  let sum (f : Profile → Nat) : Nat := others.foldl (fun acc x => acc + f x) 0
  let checks : List (Nat × Bool) :=
    [(0, p.quota ≤ s.userCapacity && sum (·.quota) + p.quota ≤ s.userCapacity),
     (1, p.floor ≤ 4096 && sum Profile.floorOf + p.floorOf ≤ 16128),
     (2, 1 ≤ p.weight && p.weight ≤ 1024),
     (3, p.share ≤ 16 && sum (·.share) + p.share ≤ 64),
     (4, 3 ≤ p.keyslots && p.keyslots ≤ 16 && sum (·.keyslots) + p.keyslots ≤ 480),
     (5, flags < 4),
     (6, p.lease = 0 || (1250 ≤ p.lease && p.lease ≤ 1250000))]
  (checks.find? (fun c => bit mask c.1 && !c.2)).map (·.1)

/-- The drive slots without an owner, rotated by the drive's own choice (R349). -/
def State.freeSlots (s : State) : List Nat :=
  let l := (List.range 64).filter (fun n => (s.slot n).owner.isNone)
  l.rotateLeft (Config.freeSlot s.free % max 1 l.length)

/-- A tenant's pattern slots brought to a search share (R266, R349): slots given up are emptied, new ones are empty. -/
def State.shareTo (s : State) (t n : Nat) : State :=
  let have_ := (s.tenant t).pslots
  let gone := have_.drop n
  let fresh := s.freeSlots.take (n - have_.length)
  let slots := s.awl.slots.mapIdx (fun i p => if gone.contains i then PatSlot.empty else p)
  let slots := fresh.zipIdx.foldl (fun l x =>
    l.modify x.1 (fun _ => { PatSlot.empty with owner := some (t, have_.length + x.2) })) slots
  { s.modTenant t (fun x => { x with pslots := x.pslots.take n ++ fresh }) with
    awl := { s.awl with slots := slots }, free := s.free + 1 }

/-- A tenant's keys in the tack room. -/
def Secure.keysOf (x : Secure) (t : Nat) : List KeySlot := x.tack.filter (fun k => k.fn == t)

/-- Keys moved down below a lower key-store count (R266). -/
def moveKeysDown (t n : Nat) (tack : List KeySlot) : List KeySlot :=
  (List.range 16).foldl (fun tack e =>
    if e < n then tack
    else if tack.any (fun k => k.fn == t && k.entry == e) then
      match (List.range n).find? (fun f => !tack.any (fun k => k.fn == t && k.entry == f)) with
      | some f => tack.map (fun k => if k.fn = t && k.entry = e then { k with entry := f } else k)
      | none => tack
    else tack) tack

/-- A scan of the tenant uses a slot at or above a share (R266). -/
def State.shareInUse (s : State) (t n : Nat) : Bool :=
  ((s.tenant t).pslots.drop n).any (fun slot => s.awl.scans.any (fun c => c.slot == slot))

/-- A profile put in force in one tick (R266). -/
def State.applyProfile (s : State) (t : Nat) (p : Profile) : State :=
  let s := (s.shareTo t p.share).modTenant t (fun x => { x with profile := p })
  { s with secure := { s.secure with tack := moveKeysDown t p.keyslots s.secure.tack } }

/-- The life-cycle states in which tenants are created and removed and spans joined (Table 10.6). -/
def State.lcOwned (s : State) : Bool := s.secure.lc == .owned

/-- TENANT_CREATE (R136, R263, R264). -/
def State.serveCreate (s : State) (d : Desc) : State :=
  let t := d.bitsOf 5 0
  if (s.tenant t).state ≠ .absent || s.creating.any (fun c => c.1 == t) || !s.lcOwned then
    s.refuse d.id .stateForbids 0
  else if profileReserved d.value then s.refuse d.id .fieldReserved 0
  else
    let p := profileOf d.value
    match s.profileFault t p (byteAt d.value 14) 0x7F with
    | some row => s.refuse d.id .range row
    | none => { s.accept d.id .waiting with creating := s.creating ++ [(t, d.id, p)] }

/-- TENANT_CREATE. -/
def execTenantCreate (id : Nat) (s : State) : Host.Outcome State Fault Refusal :=
  .next (s.serve id 0x74 (fun d s => s.serveCreate d))

/-- A tenant as R263 creates it. -/
def Tenant.created (p : Profile) (tick wall : Nat) : Tenant :=
  { Tenant.absent with state := .stopped, profile := p, day := 1, period := Period.opened 1 60 tick wall }

/-- TENANT_CREATE_COMPLETE (R263). -/
def execTenantCreateComplete (tenant : Nat) (s : State) : Host.Outcome State Fault Refusal :=
  match s.creating.find? (fun c => c.1 == tenant) with
  | none => .next s
  | some (_, id, p) =>
    let s := { s with creating := s.creating.filter (fun c => c.1 != tenant) }
    let s := s.modTenant tenant (fun _ => Tenant.created p s.tick s.ledger.wall)
    .next ((s.shareTo tenant p.share).finish id 0)

/-- TENANT_RESIZE (R136, R266): applied in this tick, and completed. -/
def State.serveResize (s : State) (d : Desc) : State :=
  let t := d.bitsOf 5 0
  let mask := d.bitsOf 38 32
  let st := (s.tenant t).state
  if st = .absent then s.refuse d.id .range 0
  else if st = .busy then s.refuseBusy d.id t
  else if st = .removing || st = .wedged then s.refuse d.id .stateForbids 0
  else if profileReserved d.value then s.refuse d.id .fieldReserved 0
  else
    let p := (s.tenant t).profile.take (profileOf d.value) mask
    match s.profileFault t p (byteAt d.value 14) mask with
    | some row => s.refuse d.id .range row
    | none =>
      if s.shareInUse t p.share || p.keyslots < (s.secure.keysOf t).length then s.refuse d.id .stateForbids 0
      else ((s.accept d.id .waiting).applyProfile t p).finish d.id 0

/-- TENANT_RESIZE. -/
def execTenantResize (id : Nat) (s : State) : Host.Outcome State Fault Refusal :=
  .next (s.serve id 0x75 (fun d s => s.serveResize d))

/-! ### Removing a tenant (R268, R342) -/

/-- TENANT_REMOVE (R136, R268). -/
def State.serveRemove (s : State) (d : Desc) : State :=
  let t := d.bitsOf 5 0
  let st := (s.tenant t).state
  if st = .absent then s.refuse d.id .range 0
  else if st = .busy then s.refuseBusy d.id t
  else if !s.lcOwned || st ≠ .stopped || s.replicated t then s.refuse d.id .stateForbids 0
  else
    { (s.accept d.id .waiting).modTenant t (fun x => { x with state := .removing }) with
      removing := s.removing.filter (fun r => r.1 != t) ++ [(t, d.id)] }

/-- TENANT_REMOVE. -/
def execTenantRemove (id : Nat) (s : State) : Host.Outcome State Fault Refusal :=
  .next (s.serve id 0x76 (fun d s => s.serveRemove d))

/-- The nearest enclosing entry of an entry (R342): the longest other visible entry whose prefix is a prefix of its
own. -/
def Awl.enclosing (x : Awl) (index : Nat) (r : Rule) : Option Rule :=
  longestMatch (((x.rules.filter (fun p => p.1 != index)).map (·.2)).filter (·.visibleIn x.view)) r.pfx

/-- The rule table once a tenant is removed (R268 step 1, R342): each of its entries is invalidated, or becomes a void
entry where another created tenant's range encloses it. -/
def Awl.removeTenant (x : Awl) (t : Nat) (created : List Nat) : Awl :=
  { x with rules := x.rules.filterMap (fun p =>
    if p.2.tenant = some t then
      match x.enclosing p.1 p.2 with
      | some e => if e.tenant.elim false (fun u => u != t && created.contains u)
        then some (p.1, { p.2 with tenant := none, cls := 0, set := 0 }) else none
      | none => none
    else some p) }

/-- Crypto-erasure of a tenant's keys: the tack-room slots and every copy of the key records (R268 step 2). -/
def Secure.eraseKeys (x : Secure) (t : Nat) : Secure :=
  { x with tack := x.tack.filter (fun k => k.fn != t), keyLoads := x.keyLoads.filter (fun k => k.2.fn != t) }

/-- The counters of a tenant's key page cleared (R268 step 2). -/
def State.clearKeyPage (s : State) (t : Nat) : State :=
  let base := 0x00080000 + 0x1000 * t
  { s with counters := s.counters.filter (fun c => c.1 < base || base + 0x1000 ≤ c.1) }

/-- The four steps of R268. The tenant's records go, their space is reclaimed on SCRUB, and so runs what background work it had. -/
def State.removeTenant (s : State) (t : Nat) : State :=
  let recs := (s.tenant t).recs
  let s := { (s.finishDue t).clearKeyPage t with
    awl := s.awl.removeTenant t s.created
    secure := s.secure.eraseKeys t }
  ((((s.restartSpaces t).shareTo t 0).modTenant t (fun _ => Tenant.absent)).toScrub t).queueSweep 33 t recs

/-- TENANT_REMOVE_COMPLETE (R268). -/
def execTenantRemoveComplete (tenant : Nat) (s : State) : Host.Outcome State Fault Refusal :=
  if (s.tenant tenant).state ≠ .removing then .next s
  else
    let by_ := assoc s.removing tenant
    let s := { s.removeTenant tenant with removing := s.removing.filter (fun r => r.1 != tenant) }
    .next (match by_ with
      | some id => s.finish id 0
      | none => s)

end Sys2Proof.Machine
end

