-- ==== Sys2Proof/Machine/Clock.lean ====
section
/-! DEFINITION. The ledger clock (4.4): wall time and SET_TIME, the posting day and CLOSE_DAY, metering periods, QUERY,
and the journalled clocks. -/
namespace Sys2Proof.Machine
open Sys2Proof

/-! ### SET_TIME (R125, R171, R172) -/

/-- The latest close time of any tenant's posting day (R172, LCK_LASTCLOSE). -/
def State.lastClose (s : State) : Nat := s.created.foldl (fun m t => max m (s.tenant t).closeTime) 0

/-- The open period of every tenant flagged step-back (R181). -/
def State.flagStepBack (s : State) : State :=
  { s with tenants := s.tenants.map (fun t =>
    if t.state = .absent then t else { t with period := { t.period with stepBack := true } }) }

/-- A requested wall time applied (R171): a forward step, a slew of at most 2 s, or a backward step. -/
def State.applyTime (s : State) (to_ : Nat) : State :=
  let w := s.ledger.wall
  let put (wall debt : Nat) (slewing : Bool) : State :=
    { s with ledger := { s.ledger with
      wall := wall, debt := debt, slewing := slewing, stall := 0, timeSet := true, wallJournal := wall,
      wallJournalAt := s.tick } }
  if w ≤ to_ then put to_ 0 false
  else if w - to_ ≤ 2000000 then put w (w - to_) true
  else (put to_ 0 false).flagStepBack

/-- SET_TIME at its place in the order, for the request that asked, if this member has it (R125, R172). -/
def State.setTimeAt (s : State) (id : Option Nat) (param : Nat) : State :=
  let to_ := bits param 62 0
  let reply (s : State) (st : Status) (p : Nat) : State :=
    match id with
    | some id => s.refuse id st p
    | none => s
  if to_ < s.lastClose && !bit param 63 then reply s .timeBeforeClose s.lastClose
  else reply (s.applyTime to_) .done s.ledger.wall

/-- An entry of the member's own next batch that is not a tenant's (Table 5.4, kinds 5 to 9). -/
def systemEntry (kind : Nat) (desc : Option Nat) (set op param : Nat) (value : Bytes) : BEntry :=
  let e : Entry := { (default : Entry) with desc := desc, set := set, op := op, param := BitVec.ofNat 64 param, value := value }
  { kind := kind, ent := e, raw := [], done := false, noted := none, recs := [] }

/-- A system entry admitted to the member's next batch. -/
def State.orderSystem (s : State) (e : BEntry) : State :=
  { s with span := { s.span with system := s.span.system ++ [e] } }

/-- SET_TIME (R125, R170). -/
def State.serveSetTime (s : State) (d : Desc) : State :=
  if s.span.apart then s.refuse d.id .outsideSpan 0
  else if s.span.counts then
    if s.span.me ≠ s.span.master then s.refuse d.id .notTimeMaster s.span.master
    else (s.acceptBy d.id .ordered (some s.boundS)).orderSystem (systemEntry 5 (some d.id) 0 0x48 d.param.toNat [])
  else s.setTimeAt (some d.id) d.param.toNat

/-- SET_TIME. -/
def execSetTime (id : Nat) (s : State) : Host.Outcome State Fault Refusal :=
  .next (s.serve id 0x48 (fun d s => s.serveSetTime d))

/-- SLEW_END (R171): the debt has been paid. -/
def execSlewEnd (s : State) : Host.Outcome State Fault Refusal :=
  if s.ledger.slewing && s.ledger.debt = 0 then .next { s with ledger := { s.ledger with slewing := false } }
  else .next s

/-! ### CLOSE_DAY (R120, R176) -/

/-- The tenant that CLOSE_DAY names. -/
def closeTarget (d : Desc) : Nat := if d.fn ≥ 62 then d.bitsOf 37 32 else d.fn

/-- The entry of a CLOSE_DAY; in a span its set is the lowest nonzero set that the tenant's rules name (R178). -/
def State.closeEntry (s : State) (d : Desc) (t : Nat) : Entry :=
  let set := ((List.range 16).find? (fun k => k != 0 && (s.tenantSets t).contains k)).getD 0
  { (default : Entry) with
    desc := some d.id, kind := .closeDay, set := set, tenant := t, op := 0x22, param := d.param, tick := s.tick,
    wall := s.ledger.wall, stamp := d.stamp }

/-- CLOSE_DAY: permission, the span's state, then the order (R120); in a span, room in the batch (R197). -/
def State.serveCloseDay (s : State) (d : Desc) : State :=
  let t := closeTarget d
  let e := s.closeEntry d t
  if (s.tenant t).state = .absent then s.refuse d.id .range 0
  else if d.fn < 32 && !(s.tenant t).profile.closeOk then s.refuse d.id .stateForbids 0
  else if s.span.state == .outside || ((s.span.apart || s.span.state == .leaving) && e.set ≠ 0) then
    s.refuse d.id .outsideSpan 0
  else if (s.tenantSets t).any s.span.fencedAt then s.refuse d.id .fenced 0
  else if e.set = 0 then (s.accept d.id .ordered).enqueueLocal e
  else if !s.batchRoom e then s.pushBack d.id s.slotRetry
  else
    (s.acceptBy d.id .ordered (some s.boundS)).joinBatch e

/-- CLOSE_DAY. -/
def execCloseDay (id : Nat) (s : State) : Host.Outcome State Fault Refusal :=
  .next (s.serve id 0x22 (fun d s => s.serveCloseDay d))

/-- LCK_TDAY_SET (R175, R177): a nonzero day, while the tenant holds no keys. -/
def State.setDay (s : State) (t day : Nat) : State :=
  if (s.tenant t).state ≠ .absent && (s.tenant t).recs.isEmpty && day ≠ 0 then s.modTenant t (fun x => { x with day := day })
  else s

/-- LCK_TDAY_SET. -/
def execLckTdaySet (tenant : Nat) (day : Word) (s : State) : Host.Outcome State Fault Refusal :=
  .next (s.setDay tenant day.toNat)

/-! ### Metering (R179 to R182) -/

/-- A period closes and the next opens in the same tick (R180); the 64 most recent closed ones are kept (R182). -/
def Tenant.nextPeriod (t : Tenant) (tick wall : Nat) : Tenant :=
  { t with
    closed := (t.period :: t.closed).take 64
    period := Period.opened (t.period.number + 1) t.meterLen tick wall }

/-- METERING_PERIOD_CLOSE (R180). -/
def execMeteringPeriodClose (tenant : Nat) (s : State) : Host.Outcome State Fault Refusal :=
  let t := s.tenant tenant
  if t.state ≠ .absent && t.period.closeTick ≤ s.tick then
    .next (s.modTenant tenant (fun t => t.nextPeriod s.tick s.ledger.wall))
  else .next s

/-- A retained period: 0 the open one, n the n-th most recent closed one (R126, R184). -/
def Tenant.periodAt (t : Tenant) (n : Nat) : Option Period := if n = 0 then some t.period else t.closed[n - 1]?

/-! ### QUERY (R126, R127) -/

/-- The protocol level of the running image (Table 11.3). -/
def Image.level (x : Image) : Nat × Nat := (byteAt x.manifest 8, byteAt x.manifest 9)

/-- Valid holds of a tenant. -/
def State.holdsOf (s : State) (t : Nat) : Nat := ((s.tenant t).holds.filter (·.validAt s.tick)).length

/-- Valid cursors of a tenant. -/
def State.cursorsOf (s : State) (t : Nat) : Nat := ((s.tenant t).cursors.filter (·.validAt s.tick)).length

/-- USAGE (Table 3.8). -/
def State.usageReport (s : State) (t : Nat) : Bytes :=
  let x := s.tenant t
  toBe 8 x.logical ++ toBe 8 x.profile.quota ++ toBe 8 x.recs.length ++ toBe 2 (s.holdsOf t) ++ toBe 2 (s.cursorsOf t)
    ++ toBe 2 (s.tagsOf t) ++ [0#8, 0#8]

/-- METER (Table 3.8): the four counts are sketches (R127), free values of the exact ones. -/
def meterReport (p : Period) (isOpen : Bool) (n : Nat) : Bytes :=
  toBe 4 p.number ++ toBe 4 (flagAt isOpen 0 + flagAt p.stepBack 1) ++ toBe 8 p.openTick
    ++ toBe 8 (if isOpen then 0 else p.closeTick) ++ toBe 8 (Config.sketch n p.requests)
    ++ toBe 8 (Config.sketch (n + 1) p.bytesRead) ++ toBe 8 (Config.sketch (n + 2) p.bytesWritten)
    ++ toBe 8 (Config.sketch (n + 3) p.busy)

/-- CLOCK (Table 3.8). -/
def State.clockReport (s : State) (t : Nat) : Bytes :=
  toBe 8 s.tick ++ toBe 8 s.ledger.wall ++ toBe 4 (s.tenant t).day ++ toBe 4 0

/-- LEVEL (Table 3.8). -/
def State.levelReport (s : State) : Bytes :=
  let l := s.update.active.level
  [BitVec.ofNat 8 l.1, BitVec.ofNat 8 l.2, 0#8, 0#8] ++ toBe 4 (if s.span.counts then s.span.me else 0xFFFFFFFF)

/-- QUERY (R126). -/
def State.serveQuery (s : State) (d : Desc) : State :=
  let t := if d.fn ≥ 62 then d.bitsOf 13 8 else d.fn
  if (s.tenant t).state = .absent then s.refuse d.id .range 0
  else match d.bitsOf 7 0 with
    | 0 => s.answer d.id .done 0 [] [] (s.usageReport t)
    | 1 =>
      let n := d.bitsOf 23 16
      match (s.tenant t).periodAt n with
      | some p => ({ s with free := s.free + 4 }).answer d.id .done 0 [] [] (meterReport p (n == 0) s.free)
      | none => s.refuse d.id .notFound 0
    | 2 => s.answer d.id .done 0 [] [] (s.clockReport t)
    | _ => s.answer d.id .done 0 [] [] s.levelReport

/-- QUERY. -/
def execQuery (id : Nat) (s : State) : Host.Outcome State Fault Refusal :=
  .next (s.serve id 0x50 (fun d s => s.serveQuery d))

/-! ### Journalled clocks (R173, R440) -/

/-- WALL_TIME_JOURNAL (R173): every 125,000 ticks. -/
def execWallTimeJournal (s : State) : Host.Outcome State Fault Refusal :=
  if s.ledger.wallJournalAt + 125000 ≤ s.tick then
    .next { s with ledger := { s.ledger with wallJournal := s.ledger.wall, wallJournalAt := s.tick } }
  else .next s

/-- TICK_COUNT_JOURNAL (R440): in every tick. -/
def execTickCountJournal (s : State) : Host.Outcome State Fault Refusal :=
  .next { s with ledger := { s.ledger with tickJournal := s.tick } }

end Sys2Proof.Machine
end

