-- ==== Sys2Proof/Machine/Rules.lean ====
section
/-! DEFINITION. Rule loads (9.3): the image, the checks of R341, and the three steps of R343. -/
namespace Sys2Proof.Machine
open Sys2Proof

/-! ### The rule image (R340, Table 9.3) -/

/-- An entry of a rule image. -/
structure ImageEntry where
  len      : Nat
  cls      : Nat
  set      : Nat
  reserved : Bytes
  field    : Bytes
  deriving DecidableEq, Repr

/-- The prefix of an entry. -/
def ImageEntry.pfx (e : ImageEntry) : Bytes := e.field.take e.len

/-- The n entries of an image. -/
def imageEntries (img : Bytes) (n : Nat) : List ImageEntry :=
  (List.range n).map (fun i =>
    let b := slice img (16 + 40 * i) 40
    { len := byteAt b 0, cls := byteAt b 1, set := byteAt b 2, reserved := slice b 3 5, field := slice b 8 32 })

/-- The collation table and the rule image that a RULE_LOAD carries. -/
def loadParts (d : Desc) : Option Bytes × Bytes :=
  if d.bitsOf 8 8 = 1 then (some (d.value.take 256), d.value.drop 256) else (none, d.value)

/-- The head's faults: FORMAT 1, then TENANT_LIMIT 7 (R341). -/
def headFault (img : Bytes) : Option Nat :=
  let n := u16 img 2
  if !(16 ≤ img.length && byteAt img 0 == 4 && byteAt img 1 == 0 && allZero (slice img 8 8) && img.length == 16 + 40 * n &&
      u32 img 4 == crc32c (img.drop 16)) then some 1
  else if n > 256 then some 7
  else none

/-- A rule that may name a set: 0, or in a span a set of the configuration in force (Table 9.4). -/
def State.setAllowed (s : State) (set : Nat) : Bool :=
  set == 0 || (set ≤ 15 && s.span.counts && cfgSet s.span.record set != 0)

/-- An entry's first fault in code order (Table 9.4). `before` are the entries of the image ahead of it, `others` the
visible entries of other tenants and void entries. -/
def State.entryFault (s : State) (before : List ImageEntry) (others : List Rule) (e : ImageEntry) : Option Nat :=
  if !allZero e.reserved then some 1
  else if e.len = 0 || e.len > 32 then some 2
  else if !allZero (e.field.drop e.len) then some 3
  else if e.cls ≥ 3 then some 4
  else if !s.setAllowed e.set then some 5
  else if before.any (fun x => x.pfx == e.pfx) || others.any (fun r => r.pfx == e.pfx) then some 6
  else none

/-- The first entry at fault, with its reason. -/
def State.entriesFault (s : State) (others : List Rule) : (before : List ImageEntry) → List ImageEntry → Option (Nat × Nat)
  | _, [] => none
  | before, e :: rest =>
    match s.entryFault before others e with
    | some reason => some (before.length, reason)
    | none => s.entriesFault others (before ++ [e]) rest

/-! ### What a load would leave (R341 to R345) -/

/-- The rule that an image entry asks for. -/
def ImageEntry.rule (e : ImageEntry) (t : Nat) (v0 v1 : Bool) : Rule :=
  { pfx := e.pfx, tenant := some t, cls := e.cls, set := e.set, v0 := v0, v1 := v1 }

/-- An existing entry that an image entry equals in L, prefix, class and set (R343 step 1). -/
def Rule.same (r : Rule) (t : Nat) (e : ImageEntry) : Bool :=
  r.tenant == some t && r.pfx == e.pfx && r.cls == e.cls && r.set == e.set

/-- An existing entry that a load takes away: an entry of the target that the image does not repeat, or a void entry
inside one of the image's entries under CLEAR_VOID (R342, R343). -/
def Rule.goes (r : Rule) (t : Nat) (clearVoid : Bool) (es : List ImageEntry) : Bool :=
  match r.tenant with
  | some u => u == t && !es.any (fun e => r.same t e)
  | none => clearVoid && es.any (fun e => hasPrefix e.pfx r.pfx)

/-- The visible rules after a load. -/
def rulesAfter (now : List Rule) (t : Nat) (clearVoid : Bool) (es : List ImageEntry) : List Rule :=
  now.filter (fun r => !r.goes t clearVoid es) ++
    (es.filter (fun e => !now.any (fun r => r.same t e))).map (fun e => e.rule t true true)

/-- The tenants, other than the target, whose extents a load changes, in ascending id (R341). -/
def State.affectedBy (s : State) (t : Nat) (after : List Rule) : List Nat :=
  let now := s.awl.visibleIn s.awl.view
  s.created.filter (fun u => u != t &&
    extentsOf (s.tenant u).coll now u != extentsOf (s.tenant u).coll after u)

/-- The keys of a tenant that a load leaves outside, in its collation (R345). -/
def State.leftOutside (s : State) (u : Nat) (after : List Rule) : List Bytes :=
  ((s.tenant u).recs.map (·.key)).filter (fun k =>
    match longestMatch after k with
    | some r => r.tenant != some u
    | none => true)

/-- The tenant that holds the first key which makes a load refused (R341 step 3). -/
def State.outsideFault (s : State) (us : List Nat) (after : List Rule) (discard : Bool) : Option Nat :=
  us.find? (fun u => (s.leftOutside u after).any (fun k => !discard || s.keySet k != 0))

/-- Namespace boundary commits left of a tenant slot (R394, TNT_NSB_LEFT). -/
def Secure.nsbLeft (x : Secure) (t : Nat) : Nat := 255 - x.nsbSpent.getD t 0

/-- Free entries of the table. -/
def Awl.freeEntries (x : Awl) : List Nat := (List.range 8192).filter (fun i => !x.rules.any (fun p => p.1 == i))

/-! ### Accepting a load -/

/-- The checks of R341 on the image: reason and index in one parameter. -/
def State.imageFault (s : State) (t : Nat) (img : Bytes) : Option Nat :=
  match headFault img with
  | some reason => some (0xFFFF + reason * 2 ^ 16)
  | none =>
    let es := imageEntries img (u16 img 2)
    let now := s.awl.visibleIn s.awl.view
    match s.entriesFault (now.filter (fun r => r.tenant != some t)) [] es with
    | some (i, reason) => some (i + reason * 2 ^ 16)
    | none =>
      let fresh := es.filter (fun e => !now.any (fun r => r.same t e))
      if 8192 - s.awl.rules.length < fresh.length then some (0xFFFF + 8 * 2 ^ 16) else none

/-- Steps 1 and 2 of R343: bits of the other view are cleared and set, and new entries take free places. -/
def State.stageRules (s : State) (t : Nat) (clearVoid : Bool) (es : List ImageEntry) : State :=
  let other := !s.awl.view
  let now := s.awl.visibleIn s.awl.view
  let clear (r : Rule) : Rule := if other then { r with v1 := false } else { r with v0 := false }
  let kept := s.awl.rules.map (fun p => if p.2.goes t clearVoid es then (p.1, clear p.2) else p)
  let fresh := es.filter (fun e => !now.any (fun r => r.same t e))
  let free := s.awl.freeEntries
  let places := free.rotateLeft (Config.freeEntry s.free % max 1 free.length)
  let rules := (places.zip fresh).foldl (fun l x => insertSorted x.1 (x.2.rule t (!other) other) l) kept
  { s with awl := { s.awl with rules := rules }, free := s.free + 1 }

/-- RULE_LOAD (R137, R341). -/
def State.serveRuleLoad (s : State) (d : Desc) : State :=
  let t := d.bitsOf 5 0
  let clearVoid := d.bitsOf 9 9 == 1
  let discard := d.bitsOf 10 10 == 1
  let (coll, img) := loadParts d
  if (s.tenant t).state = .busy then s.refuseBusy d.id t
  else match s.imageFault t img with
    | some p => s.refuse d.id .ruleInvalid p
    | none =>
      if !coll.all isPermutation then s.refuse d.id .collationInvalid 0
      else if coll.isSome && !(s.tenant t).recs.isEmpty then s.refuse d.id .stateForbids t
      else
        let es := imageEntries img (u16 img 2)
        let after := rulesAfter (s.awl.visibleIn s.awl.view) t clearVoid es
        let affected := s.affectedBy t after
        let all := t :: affected
        match all.find? (fun u => (s.tenant u).state != .stopped) with
        | some u => s.refuse d.id .stateForbids u
        | none =>
          match s.outsideFault all after discard with
          | some u => s.refuse d.id .stateForbids (u + 64)
          | none =>
            match all.find? (fun u => s.secure.nsbLeft u == 0) with
            | some u => s.refuse d.id .countExhausted u
            | none =>
              match s.awl.loading with
              | some l => s.pushBack d.id (1250 - (s.tick - l.started))
              | none =>
                let s := (s.accept d.id .waiting).stageRules t clearVoid es
                { s with awl := { s.awl with
                  loading := some { desc := d.id, target := t, affected := affected, coll := coll, started := s.tick } } }

/-- RULE_LOAD. -/
def execRuleLoad (id : Nat) (s : State) : Host.Outcome State Fault Refusal :=
  .next (s.serve id 0x77 (fun d s => s.serveRuleLoad d))

/-! ### Step 3 and the tidy (R343) -/

/-- The table once a view has been made the only one: entries that it does not show are free, the others are visible in
both views. -/
def Awl.settleView (x : Awl) (view : Bool) : Awl :=
  { x with
    rules := (x.rules.filter (fun p => p.2.visibleIn view)).map (fun p => (p.1, { p.2 with v0 := true, v1 := true }))
    view := view
    loading := none }

/-- Namespace boundary commits burned (R394, R395). -/
def Secure.burnNsb (x : Secure) (us : List Nat) : Secure :=
  { x with nsbSpent := us.foldl (fun l u => l.modify u (· + 1)) x.nsbSpent }

/-- The keys that a load leaves outside removed in one journal record, which takes no sequence number, and their space reclaimed as
background work of their tenant (R345). -/
def State.removeOutside (s : State) (t : Nat) (us : List Nat) (after : List Rule) : State :=
  let gone := us.map (fun u => (u, (s.tenant u).recs.filter (fun r => (s.leftOutside u after).contains r.key)))
  let keys := (gone.map (·.2)).flatten.map (·.key)
  if keys.isEmpty then s
  else
    let s := s.removeKeys t keys
    gone.foldl (fun s x =>
      (s.modTenant x.1 (fun y => { y with recs := y.recs.filter (fun r => !keys.contains r.key) })).queueSweep x.1 x.1 x.2) s

/-- What stands once the configuration record's valid word is written (R343 step 3, R344), with the tidy: the commits are burned, the keys left outside go, and the other view becomes active.
The holds and cursors of the tenants whose boundaries changed end (R41), and a range that passes to another ordering authority raises
that one's next sequence number (R34). What R341 judged when the load was accepted is not judged again: a tenant that has been
started, or has taken a span entry, since then has the new boundaries applied all the same (DESIGN CHOICE, assumption log 123). -/
def State.applyRules (s : State) (l : RuleLoading) : State :=
  let all := l.target :: l.affected
  let after := s.awl.visibleIn (!s.awl.view)
  let s := { s with secure := s.secure.burnNsb all }
  let s := s.removeOutside l.target all after
  let s := all.foldl (fun s u => s.modTenant u Tenant.freeLeases) s
  let s := match l.coll with
    | some tab => s.modTenant l.target (fun x => { x with coll := some tab })
    | none => s
  let s : State := { s with
    awl := s.awl.settleView (!s.awl.view)
    span := { s.span with sets := s.span.sets.map (fun (y : SetState) => { y with skew := false }) } }
  all.foldl State.raiseAbove s

/-- Step 3 of R343 with the tidy, and the completion. -/
def State.validateRules (s : State) (l : RuleLoading) : State := ((s.applyRules l).bump 0x00050120).finish l.desc 0

/-- A load that a reset or a power loss cuts off (R344): nothing of it stands, or its commits alone are spent, or the record's valid word
had been written and the new rules stand; which, is free (assumption log 137). -/
def State.cutLoad (s : State) : State :=
  match s.awl.loading with
  | none => s
  | some l =>
    match Config.openValue s.free 17 % 3 with
    | 0 => s
    | 1 => { s with secure := s.secure.burnNsb (l.target :: l.affected) }
    | _ => s.applyRules l

/-- RULE_LOAD_VALIDATE. -/
def execRuleLoadValidate (s : State) : Host.Outcome State Fault Refusal :=
  match s.awl.loading with
  | some l => .next (s.validateRules l)
  | none => .next s

end Sys2Proof.Machine
end

