-- ==== Sys2Proof/Machine/Keys.lean ====
section
/-! DEFINITION. Keys and the life cycle (chapter 10): blobs, KEY_LOAD, generations, the tack room, entropy, and
LC_TRANSITION with its side effects. -/
namespace Sys2Proof.Machine
open Sys2Proof

/-! ### Blobs (R367, R368) -/

/-- The key of a blob that passes the checks of Table 10.3, or the reason code of the first that fails. `allowed` is the
wrapping-key byte that the request allows. -/
def State.unwrapBlob (s : State) (b : Bytes) (kind target allowed : Nat) : Except Nat Bytes :=
  let head := b.take 16
  let wrapping := byteAt b 3
  if b.length ≠ 72 || byteAt b 0 ≠ 5 || !allZero (slice b 12 4) || wrapping > 1 then .error 1
  else
    let key := if wrapping = 0 then some (s.transportKey s.secure.epoch) else s.secure.okekSlot.map KeySlot.key
    match key.bind (fun k => keyUnwrap k (b.drop 16)) with
    | none => .error 2
    | some p =>
      if p.take 16 ≠ head || byteAt b 1 ≠ kind || byteAt b 2 ≠ target then .error 3
      else if wrapping ≠ allowed then .error 4
      else if u32 b 4 ≠ 0 && u32 b 4 ≠ s.ident.instanceId then .error 5
      else
        let last := ((s.secure.serials.find? (fun x => x.1 == kind && x.2.1 == target)).map (·.2.2)).getD 0
        if u32 b 8 ≤ last then .error 6 else .ok (p.drop 16)

/-- The last accepted serial of a kind and target (R369). -/
def Secure.setSerial (x : Secure) (kind target serial : Nat) : Secure :=
  { x with serials := (kind, target, serial) :: x.serials.filter (fun y => !(y.1 == kind && y.2.1 == target)) }

/-- A refused blob, counted (CIP_UNWRAP_FAIL, TKP_UNWRAP_FAIL). -/
def State.countUnwrapFail (s : State) (target : Nat) : State :=
  let s := s.bump 0x00070108
  if target < 32 then s.bumpTkp target 0x420 else s

/-! ### KEY_LOAD (R139, R380, R390) -/

/-- The kind that a request names. -/
def kindOf (n : Nat) : KeyKind := if n = 0 then .okek else if n = 1 then .data else .mak

/-- The number of a kind. -/
def KeyKind.code : KeyKind → Nat
  | .okek => 0
  | .data => 1
  | .mak => 2

/-- A KEY_LOAD that replaces a key of its kind and target (R390). -/
def State.isRotation (s : State) (kind : KeyKind) (target : Nat) : Bool :=
  match kind with
  | .okek => true
  | .mak => target == 62 || s.secure.tack.any (fun k => k.kind == .mak && k.fn == target)
  | .data => (s.secure.genIn target .current).isSome

/-- The life-cycle state lets the load pass (Table 10.6, R390). -/
def State.loadAllowed (s : State) (kind : KeyKind) (target : Nat) : Bool :=
  match s.secure.lc with
  | .owned => true
  | .locked => s.isRotation kind target
  | _ => false

/-- A tenant's keys with the loads still being stored. -/
def Secure.allKeys (x : Secure) (t : Nat) : List KeySlot := x.keysOf t ++ (x.keyLoads.map (·.2)).filter (fun k => k.fn == t)

/-- The generation number that a new data key takes (R380): counting upward from the newest generation, the first that no
slot holds and no value names; 0 where there is no newest one (assumption log 30). -/
def State.nextGen (s : State) (t : Nat) : Option Nat :=
  let keys := (s.secure.allKeys t).filter (fun k => k.kind == .data)
  let newest := ((keys.find? (fun k => k.gstate == .pending)).orElse
    (fun _ => keys.find? (fun k => k.gstate == .current))).map (·.gen)
  let start := newest.elim 0 (· + 1)
  ((List.range 16).map (fun i => (start + i) % 16)).find? (fun g =>
    !keys.any (fun k => k.gen == g) && !(s.tenant t).recs.any (fun r => r.gen == g))

/-- A PENDING generation that already encrypts values (R380). -/
def State.pendingInUse (s : State) (t : Nat) : Bool :=
  (s.secure.genIn t .pending).elim false (fun k => (s.tenant t).recs.any (fun r => r.gen == k.gen))

/-- What slots and generations make of a tenant's load (R370, R380). -/
def State.slotsForbid (s : State) (kind : KeyKind) (t : Nat) : Bool :=
  let keys := s.secure.allKeys t
  let full := (s.tenant t).profile.keyslots ≤ keys.length
  match kind with
  | .okek => false
  | .mak => t < 32 && !keys.any (fun k => k.kind == .mak) && full
  | .data =>
    s.pendingInUse t || (s.nextGen t).isNone ||
      (full && !keys.any (fun k => k.kind == .data && k.gstate == .pending))

/-- A key as it is stored: its shares unmasked until the first remask (assumption log 31). -/
def newSlot (fn : Nat) (kind : KeyKind) (gen serial : Nat) (key : Bytes) : KeySlot :=
  { slot := 0, fn := fn, entry := 0, kind := kind, gen := gen, gstate := .pending, share0 := List.replicate 32 0#8,
    share1 := key, serial := serial, nonce := 0, ceiling := 0, lowSent := false, inMram := true, inPslc := false,
    lost := false, maskedAt := 0 }

/-- A key kind and a target that R139 refuses with RANGE after the checks of R104. -/
def State.keyTargetBad (s : State) (kind t : Nat) : Bool :=
  2 < kind || (kind == 0 && t != 62) || (kind == 1 && t == 62) || (t < 32 && (s.tenant t).state == .absent)

/-- KEY_LOAD (R139). -/
def State.serveKeyLoad (s : State) (d : Desc) : State :=
  let t := d.bitsOf 5 0
  let kind := kindOf (d.bitsOf 11 8)
  if s.keyTargetBad (d.bitsOf 11 8) t then s.refuse d.id .range 0
  else if t < 32 && (s.tenant t).state == .busy then s.refuseBusy d.id t
  else if !s.loadAllowed kind t then s.refuse d.id .stateForbids 0
  else match s.unwrapBlob d.value kind.code t 1 with
    | .error reason => (s.countUnwrapFail t).refuse d.id .unwrapFail reason
    | .ok key =>
      if s.slotsForbid kind t then s.refuse d.id .stateForbids 0
      else if kind = .okek && s.secure.okekSpent ≥ 64 then s.refuse d.id .countExhausted 0
      else
        let serial := u32 d.value 8
        let k := newSlot t kind (if kind = .data then (s.nextGen t).getD 0 else 0) serial key
        let x := s.secure.setSerial kind.code t serial
        { (s.bump 0x00070100).accept d.id .waiting with secure := { x with
          okekSpent := x.okekSpent + (if kind = .okek then 1 else 0)
          keyLoads := x.keyLoads ++ [(d.id, k)] } }

/-- KEY_LOAD. -/
def execKeyLoad (id : Nat) (s : State) : Host.Outcome State Fault Refusal :=
  .next (s.serve id 0x7A (fun d s => s.serveKeyLoad d))

/-- The lowest tack-room slot of a region that holds no key. -/
def Secure.freeSlot (x : Secure) (first count : Nat) : Nat :=
  (((List.range count).map (· + first)).find? (fun n => !x.tack.any (fun k => k.slot == n))).getD first

/-- The lowest free slot entry of a tenant. -/
def Secure.freeEntry (x : Secure) (t : Nat) : Nat :=
  ((List.range 16).find? (fun n => !x.tack.any (fun k => k.fn == t && k.entry == n))).getD 0

/-- The tack room with a key put in the place of the keys that `out` picks (R370). -/
def Secure.putKey (x : Secure) (k : KeySlot) (out : KeySlot → Bool) : Secure :=
  let old := x.tack.find? out
  let x := { x with tack := x.tack.filter (fun y => !out y) }
  let slot := if k.fn < 32 then (old.map (·.slot)).getD (x.freeSlot 32 480) else (old.map (·.slot)).getD (x.freeSlot 0 32)
  let entry := if k.fn < 32 then (old.map (·.entry)).getD (x.freeEntry k.fn) else 0
  { x with tack := x.tack ++ [{ k with slot := slot, entry := entry }] }

/-- A key takes effect (R371, R380, R87). -/
def State.installKey (s : State) (k : KeySlot) : State :=
  match k.kind with
  | .okek => { s with secure := s.secure.putKey k (fun y => y.kind == .okek) }
  | .mak =>
    let x := s.secure.putKey k (fun y => y.kind == .mak && y.fn == k.fn)
    { s with secure := { x with mgmtMak := if k.fn = 62 then none else x.mgmtMak } }.restartSpaces k.fn
  | .data =>
    if (s.secure.genIn k.fn .current).isNone then
      { s with secure := s.secure.putKey { k with gstate := .current } (fun _ => false) }
    else
      { s with secure := s.secure.putKey k (fun y => y.kind == .data && y.fn == k.fn && y.gstate == .pending) }

/-- KEY_LOAD_COMPLETE (R371): the oldest record under way is complete in both MRAM copies. -/
def execKeyLoadComplete (s : State) : Host.Outcome State Fault Refusal :=
  match s.secure.keyLoads with
  | [] => .next s
  | (id, k) :: rest => .next (({ s with secure := { s.secure with keyLoads := rest } }.installKey k).finish id 0)

/-- KEY_RECORD_PERSIST (R371): the record stands in both pSLC configuration copies. -/
def execKeyRecordPersist (record : Nat) (s : State) : Host.Outcome State Fault Refusal :=
  .next { s with secure := { s.secure with
    tack := s.secure.tack.map (fun (k : KeySlot) => if k.slot = record then { k with inPslc := true } else k) } }

/-! ### Generations (R373, R382) -/

/-- The values of a generation are lost (R310, R373, R382): flagged, counted, and announced once. -/
def State.loseGeneration (s : State) (t gen : Nat) : State :=
  let named := ((s.tenant t).recs.filter (fun r => r.gen == gen)).map (·.key)
  if named.isEmpty then s
  else
    let s := s.modTenant t (fun x => { x with
      recs := x.recs.map (fun r => if r.gen = gen then { r with lost := .integrity, cached := false } else r) })
    let s := { s with media := { s.media with life := s.media.life.modify 19 (· + named.length) } }
    (named.foldl (fun s k => s.fence (s.keySet k)) s).raise 0x8301 t 0 0

/-- TKP_GEN_ERASE (R382): the key bits, a RETIRED generation, and a tenant that is not BUSY. -/
def State.eraseGeneration (s : State) (t value : Nat) : State :=
  let gen := bits value 3 0
  let k := s.secure.tack.find? (fun k => k.kind == .data && k.fn == t && k.gen == gen && k.gstate == .retired)
  if bits value 31 16 = 0x4552 && k.isSome && (s.tenant t).state != .busy && (s.tenant t).state != .absent then
    { s with secure := { s.secure with
      tack := s.secure.tack.filter (fun (k : KeySlot) => !(k.kind == KeyKind.data && k.fn == t && k.gen == gen)) } }.loseGeneration t gen
  else s

/-- TKP_GEN_ERASE. -/
def execTkpGenErase (tenant : Nat) (value : Word) (s : State) : Host.Outcome State Fault Refusal :=
  .next (s.eraseGeneration tenant value.toNat)

/-! ### The tack room (R372, R373) and entropy (R384) -/

/-- TACK_REMASK (R372): every 1,250 ticks a fresh mask of 32 bytes into both shares. -/
def execTackRemask (slot : Nat) (mask : Bytes) (s : State) : Host.Outcome State Fault Refusal :=
  let m := padTo 32 mask
  let remask (k : KeySlot) : KeySlot := { k with share0 := xorBytes m k.share0, share1 := xorBytes m k.share1, maskedAt := s.tick }
  .next { s with secure := { s.secure with
    tack := s.secure.tack.map (fun (k : KeySlot) => if k.slot = slot && k.maskedAt + 1250 ≤ s.tick then remask k else k) } }

/-- A key whose every record copy is unreadable (R373). -/
def State.loseKey (s : State) (k : KeySlot) : State :=
  let s := { s with secure := { s.secure with
    tack := s.secure.tack.map (fun (x : KeySlot) => if x.slot = k.slot then { x with lost := true } else x) } }
  let s := s.raise 0x8307 k.fn k.kind.code 0
  if k.kind = .data then s.loseGeneration k.fn k.gen else s

/-- TACK_PARITY_ERROR (R373). -/
def execTackParityError (slot : Nat) (recordGood : Bool) (s : State) : Host.Outcome State Fault Refusal :=
  match s.secure.tack.find? (fun k => k.slot == slot && !k.lost) with
  | none => .next s
  | some k => .next (if recordGood then s.bump 0x00070118 else s.loseKey k)

/-- ENTROPY_RESEED (R384): every 125,000 ticks from samples that passed their tests; a failed test withholds its sample. -/
def execEntropyReseed (passed : Bool) (s : State) : Host.Outcome State Fault Refusal :=
  if passed then
    if s.tick < s.secure.reseedAt + 125000 then .next s
    else .next { s with secure := { s.secure with
      seeded := true, reseeds := min 0xFFFF (s.secure.reseeds + 1), reseedAt := s.tick } }
  else
    .next (({ s with secure := { s.secure with entFail := true } }.bump 0x00070120).raise 0x8701 0 0 0)

/-! ### The life cycle (R388 to R392) -/

/-- A row of Table 10.8: the transition exists for the issuing function. -/
def lcIssuer (frm to_ : LcState) (fn : Nat) : Bool :=
  match frm, to_ with
  | .maker, .owned | .owned, .locked | .locked, .owned | .owned, .ret | .locked, .ret => fn == 62
  | .ret, .maker => fn == 63
  | .ret, .scrapped => fn == 62 || fn == 63
  | _, _ => false

/-- The value length of a transition. -/
def lcLength (frm to_ : LcState) : Nat :=
  match frm, to_ with
  | .maker, .owned => 72
  | .locked, .owned | .owned, .ret | .locked, .ret => 16
  | _, _ => 0

/-- The preconditions of a transition (Table 10.8). -/
def State.lcReady (s : State) (frm to_ : LcState) : Bool :=
  match frm, to_ with
  | .maker, .owned | .owned, .locked => s.update.session == .idle
  | .owned, .ret | .locked, .ret =>
    !s.span.counts && s.update.session == .idle &&
      s.tenants.all (fun t => (t.state == .stopped || t.state == .absent) && t.longOp.isNone)
  | _, _ => true

/-- The pair that a transition uses (R386, R388 item 4). -/
def Secure.pairFor (x : Secure) (to_ : LcState) : Option Nat :=
  match to_ with
  | .scrapped => if x.pairUsed 23 then none else some 23
  | .ret => if x.returnsLeft = 0 then none else x.nextPair
  | _ => x.nextPair

/-- The record that an authorisation is computed over (R389). -/
def State.lcRecord (s : State) (frm to_ : LcState) (k : Nat) : Bytes :=
  toBe 4 s.ident.instanceId ++ [BitVec.ofNat 8 frm.code, BitVec.ofNat 8 to_.target, BitVec.ofNat 8 k,
    BitVec.ofNat 8 s.secure.epoch] ++ List.replicate 8 0#8

/-- The authorisation of an unlock or a return verifies (R389). -/
def State.lcAuthorised (s : State) (frm to_ : LcState) (k : Nat) (tag : Bytes) : Bool :=
  let label := if to_ = .ret then ascii "RELEASE" else ascii "UNLOCK"
  match s.secure.okekSlot with
  | some o => cmac (kdf o.key label (s.ctx s.secure.epoch)) (s.lcRecord frm to_ k) == tag
  | none => false

/-- The last check of R388: a claim's blob, or the authorisation. -/
def State.lcCheck5 (s : State) (frm to_ : LcState) (k : Nat) (value : Bytes) : Option (Status × Nat) :=
  if frm = .maker then
    match s.unwrapBlob value 0 62 0 with
    | .error reason => some (.unwrapFail, reason)
    | .ok _ => none
  else if lcLength frm to_ = 16 && !s.lcAuthorised frm to_ k value then some (.signature, 0)
  else none

/-- LC_TRANSITION accepted (R391 step 1): the intent is written, and the burning of the INTENT row begins. -/
def State.beginTransition (s : State) (d : Desc) (frm to_ : LcState) (k : Nat) : State :=
  let s := s.accept d.id .waiting
  { s with secure := { s.secure with
    intent := some { frm := frm, to_ := to_, k := k, tick := s.tick, value := d.value }
    lcDesc := some d.id
    lcRunning := true } }

/-- LC_TRANSITION (R138, R388). -/
def State.serveTransition (s : State) (d : Desc) : State :=
  let frm := s.secure.lc
  match lcOfTarget (d.bitsOf 3 0) with
  | none => s.refuse d.id .stateForbids 0
  | some to_ =>
    if s.secure.lcRunning || !lcIssuer frm to_ d.fn then s.refuse d.id .stateForbids 0
    else if d.value.length ≠ lcLength frm to_ then s.refuse d.id .range 0
    else if !s.lcReady frm to_ then s.refuse d.id .stateForbids 0
    else match s.secure.pairFor to_ with
      | none => s.refuse d.id .countExhausted 0
      | some k =>
        match s.lcCheck5 frm to_ k d.value with
        | some (st, p) => (if st == .unwrapFail then s.countUnwrapFail 62 else s).refuse d.id st p
        | none => s.beginTransition d frm to_ k

/-- LC_TRANSITION. -/
def execLcTransition (id : Nat) (s : State) : Host.Outcome State Fault Refusal :=
  .next (s.serve id 0x78 (fun d s => s.serveTransition d))

/-- The side effects of CLAIM (Table 10.8). The blob was checked when the request was judged. -/
def State.claimEffects (s : State) (value : Bytes) : State :=
  match keyUnwrap (s.transportKey s.secure.epoch) (value.drop 16) with
  | none => s
  | some p =>
    let okek := p.drop 16
    let serial := u32 value 8
    let x := (s.secure.setSerial 0 62 serial).putKey (newSlot 62 .okek 0 serial okek) (fun y => y.kind == .okek)
    let x := { x with
      tack := x.tack.filter (fun k => !(k.kind == .mak && k.fn == 62))
      mgmtMak := some (kdf okek (ascii "MGMT") (s.ctx s.secure.epoch)) }
    ({ s with secure := x }.restartSpaces 62).bump 0x00070100

/-- The side effects of a RETURN (Table 10.8): every tenant is removed as under R268, its rules invalidated with no void entry made. -/
def State.returnEffects (s : State) : State :=
  let s : State := { s with awl := { s.awl with rules := s.awl.rules.filter (fun p => p.2.tenant.isNone), loading := none } }
  let s := (List.range 32).foldl State.removeTenant s
  { s with secure := { s.secure with tack := [], keyLoads := [], serials := [], mgmtMak := none } }.restartSpaces 62

/-- The side effects of a transition to SCRAPPED (Table 10.8). -/
def Secure.scrap (x : Secure) : Secure :=
  { x with drk := List.replicate 32 0xFF#8, tack := [], keyLoads := [], mgmtMak := none }

/-- The side effects of a transition, in the order of Table 10.8. -/
def State.lcEffects (s : State) (frm to_ : LcState) (value : Bytes) : State :=
  match frm, to_ with
  | .maker, .owned => s.claimEffects value
  | .owned, .ret | .locked, .ret => s.returnEffects
  | .ret, .maker => s.restartSpaces 62
  | .ret, .scrapped => { s with secure := s.secure.scrap }
  | _, _ => s

/-- The rest of a transition (R391 steps 3 and 4): side effects, then the DONE row. -/
def State.endTransition (s : State) (frm to_ : LcState) (k : Nat) (value : Bytes) : State :=
  let s := s.lcEffects frm to_ value
  let x := s.secure.burnRow (lcRowOf k + 1) (lcRow true frm to_ k (s.tick % 2 ^ 32))
  { s with secure := { x with intent := none, lcDesc := none, lcRunning := false } }

/-- LC_TRANSITION_DONE (R391): the INTENT row is complete, the side effects are done and the DONE row is burned; the new state holds
from the next tick, and the completion is sent. -/
def execLcTransitionDone (s : State) : Host.Outcome State Fault Refusal :=
  match s.secure.intent with
  | none => .next s
  | some i =>
    let by_ := s.secure.lcDesc
    let s : State := { s with secure := s.secure.burnRow (lcRowOf i.k) i.row }
    let s := s.endTransition i.frm i.to_ i.k i.value
    let s : State := { s with secure := { s.secure with lcHeld := some i.frm, lcRunning := true } }
    .next (match by_ with
      | some id => s.finish id 0
      | none => s)

/-! ### Torn rows (R392, R393) -/

/-- The upper bits of a row's value: what a burn from bit 63 down has blown after a number of bits. -/
def upperBits (n : Nat) (v : BitVec 64) : BitVec 64 := v &&& (BitVec.allOnes 64 <<< (64 - n))

/-- A transition that a reset or a power loss cuts off (R392, R393): its INTENT row, or its DONE row behind the side effects, is burned
down to a bit that is free (assumption log 73). -/
def State.cutTransition (s : State) : State :=
  match s.secure.intent with
  | none => s
  | some i =>
    let n := Config.openValue s.free 18 % 65
    if !s.secure.lcRunning then s
    else if s.secure.intentRow i.k ≠ i.row then
      { s with secure := { s.secure.burnRow (lcRowOf i.k) (upperBits n i.row) with lcRunning := false } }
    else
      let s := if 0 < n then s.lcEffects i.frm i.to_ i.value else s
      { s with secure := { s.secure.burnRow (lcRowOf i.k + 1) (upperBits n (lcRow true i.frm i.to_ i.k (s.tick % 2 ^ 32))) with
        lcRunning := false } }

/-- The DONE row of an INTENT row, burned at a tick. -/
def doneOf (row : BitVec 64) (tick : Nat) : BitVec 64 :=
  let body := [0x5A#8] ++ slice (toBe 7 (row.toNat / 256)) 1 2 ++ toBe 4 tick
  BitVec.ofNat 64 (beNat body * 256 + crc8 body)

/-- A torn DONE row completed from its INTENT row (R393): the tick is the INTENT row's, unless the bits already blown show another. -/
def completedDone (row torn : BitVec 64) : BitVec 64 :=
  let whole := doneOf row (bits row.toNat 39 8)
  if torn &&& whole = torn then whole else doneOf row (bits torn.toNat 39 8)

/-- The rows of a pair repaired at start (R393). -/
def Secure.repairPair (x : Secure) (intent : Option Intent) (k : Nat) : Secure :=
  let row := x.intentRow k
  let done := x.doneRow k
  match lcRead row with
  | some (false, _, _, _) => if done = 0#64 || (lcRead done).isSome then x else x.burnRow (lcRowOf k + 1) (completedDone row done)
  | _ =>
    let void := (x.burnRow (lcRowOf k) (BitVec.allOnes 64)).burnRow (lcRowOf k + 1) (BitVec.allOnes 64)
    if row = 0#64 then x
    else match intent with
      | some i => if i.k = k && row &&& i.row = row then x.burnRow (lcRowOf k) i.row else void
      | none => void

/-- The array repaired, with the intent that MRAM holds. -/
def Secure.repairRows (x : Secure) (intent : Option Intent) : Secure := lcSerials.foldl (fun x k => x.repairPair intent k) x

/-- The state that a from-state code names (Table 10.7). -/
def lcOfFrom : Nat → LcState
  | 1 => .owned
  | 2 => .locked
  | 3 => .ret
  | _ => .maker

/-- The last used pair, where its INTENT row is valid and its DONE row is not: serial, from-state, to-state (R392). -/
def Secure.openPair (x : Secure) : Option (Nat × LcState × LcState) :=
  (lcSerials.reverse.find? x.pairUsed).bind (fun k =>
    match lcRead (x.intentRow k), lcRead (x.doneRow k) with
    | some (false, a, b, _), none => some (k, lcOfFrom a, (lcOfTarget b).getD .maker)
    | _, _ => none)

end Sys2Proof.Machine
end

