-- ==== Sys2Proof/Machine/Ports.lean ====
section
/-! DEFINITION. Host ports (chapter 6): auto-negotiation, link state, Energy-Efficient Ethernet and LLDP, the
transmitter, and events on their way out (R462). -/
namespace Sys2Proof.Machine
open Sys2Proof

/-! ### Shared operations of a port -/

/-- A bit of CTRL (Table 6.4). -/
def PortState.ctl (p : PortState) (i : Nat) : Bool := p.ctrl.getLsbD i

/-- The base page that CTRL asks for (R236); the 25 Gb/s abilities may be withdrawn for one attempt (R237). -/
def PortState.basePage (p : PortState) (withdraw : Bool) : BasePage :=
  let allow := (p.ctrl.toNat / 2) % 4
  let may25 := allow != 2 && !withdraw
  { kr25 := may25, kr25s := may25, kr10 := allow != 1, f0 := true, f1 := p.ctl 4, f2 := !p.ctl 3, f3 := p.ctl 3, eee := p.ctl 5 }

/-- Auto-negotiation starts (R236): the advertisement is that of CTRL at this time (6.2.1), unless 25 Gb/s is withdrawn for this
attempt (R237). -/
def PortState.negotiate (p : PortState) (tick : Nat) (withdraw : Bool) : PortState :=
  if p.ctl 0 then
    { p with
      anStart := some tick, an := none, page := p.basePage withdraw, nullPages := false, withdrawn := withdraw
      fallback := withdraw }
  else { p with anStart := none, an := none, withdrawn := false, fallback := false }

/-- A port's own Receive Tw in µs for the speed in use (R243): 0 while the link is down. -/
def PortState.rxTw (p : PortState) : Nat := if p.speed = 2 then 2 else if p.speed = 1 then 6 else 0

/-- The valid partner TLV in a tick (R242). -/
def PortState.partner (p : PortState) (tick : Nat) : Option EeeTlv := p.eee.filter (fun e => tick < e.expiry)

/-- What R244 asks for transmit LPI, apart from the LLDPDU of R245. EEE_ADV counts as of the negotiation (6.2.1; assumption log
136). -/
def PortState.lpiMay (p : PortState) (tick : Nat) : Bool :=
  p.speed == 2 && p.an.elim false (·.eee) && p.page.eee && (p.partner tick).elim false (fun e => e.rxTw ≤ 4)

/-- Transmit LPI is permitted (TX_LPI_OK). -/
def PortState.lpiAllowed (p : PortState) (tick : Nat) : Bool := p.lpiOk && p.lpiMay tick

/-- The Transmit Tw that the drive advertises (R244). -/
def PortState.wantTx (p : PortState) (tick : Nat) : Nat :=
  match p.partner tick with
  | some e => if e.rxTw ≤ 4 then max 1 e.rxTw else 4
  | none => p.ownTx

/-- The link goes down (R239): UP cleared, DOWN set and counted, PORT_DOWN raised, negotiation restarted. A frame cut on the receive
side counts in RX_FCS, one cut on the transmit side in TX_DISC (6.2.1). -/
def State.linkFalls (s : State) (p : Port) (rxCut txCut : Bool) : State :=
  let s := if rxCut then s.bumpPort p 0x108 else s
  let s := if txCut then s.bumpPort p 0x190 else s
  let s := s.modPort p (fun q =>
    { q.negotiate s.tick false with
      up := false, linkEvt := q.linkEvt ||| 1#4, txLpi := false, rxLpi := false, lpiOk := false })
  (s.bumpPort p 0x1C0).raise 0x8001 (portNo p) 0 0

/-! ### Negotiation and link -/

/-- The PHY that Clause 73 resolves, highest first: 25GBASE-KR, 25GBASE-KR-S, 10GBASE-KR (R237); `true` marks the -S
form. The abilities offered are those of the base page. -/
def resolvePhy (g : BasePage) (x : Partner) : Option (Nat × Bool) :=
  if g.kr25 && x.kr25 then some (2, false)
  else if g.kr25s && x.kr25s then some (2, true)
  else if g.kr10 && x.kr10 then some (1, false)
  else none

/-- The FEC mode by the rules of Clause 73 (R236, R237): at 25 Gb/s RS-FEC when either side requests it, or BASE-R on
the -S form; at 10 Gb/s BASE-R when both are able and either requests it. -/
def resolveFec (g : BasePage) (x : Partner) (speed : Nat) (short : Bool) : Nat :=
  if speed = 2 then
    if x.noFec then 0
    else if g.f2 || x.f2 then (if short then 1 else 2)
    else 1
  else if g.f0 && x.f0 && (g.f1 || x.f1) then 1 else 0

/-- AUTO_NEGOTIATION_COMPLETE (R236, R237): null next pages went out where the partner set its Next Page bit. -/
def execAutoNegotiationComplete (port : Port) (partner : Partner) (s : State) : Host.Outcome State Fault Refusal :=
  let p := s.port port
  if p.anStart.isNone || p.up then .next s
  else match resolvePhy p.page partner with
    | none => .next (s.modPort port (fun q => q.negotiate s.tick false))
    | some (speed, short) =>
      let fec := resolveFec p.page partner speed short
      if speed = 2 && fec = 0 then
        .next (s.modPort port (fun q => { q.negotiate s.tick true with linkEvt := q.linkEvt ||| 8#4 }))
      else
        .next (s.modPort port (fun q => { q with
          nullPages := partner.np
          an := some { speed := speed, fec := fec, eee := partner.eee && q.page.eee } }))

/-- LINK_UP (R238, R240): every condition holds; UP is set, PORT_UP raised, and the equalisation is that of the training. -/
def execLinkUp (port : Port) (s : State) : Host.Outcome State Fault Refusal :=
  let p := s.port port
  if p.an.isNone || p.up || !p.ctl 0 then .next s
  else
    let s := s.modPort port (fun q => { q with
      up := true, linkEvt := q.linkEvt ||| 2#4, anStart := none, idleSince := s.tick, lldpDue := true })
    .next ((s.trainLane (portNo port)).raise 0x8002 (portNo port) ((s.port port).speed) 0)

/-- LINK_UP_TIMEOUT (R238): 125,000 ticks after negotiation started the link is still not up. -/
def execLinkUpTimeout (port : Port) (s : State) : Host.Outcome State Fault Refusal :=
  match (s.port port).anStart with
  | some t =>
    if !(s.port port).up && t + 125000 ≤ s.tick then .next (s.modPort port (fun q => q.negotiate s.tick false))
    else .next s
  | none => .next s

/-- LINK_DOWN (R239): loss of lock on a link that is up, or failed training of one that has negotiated and is not up yet, which
cuts no frame (6.5.1). -/
def execLinkDown (port : Port) (rxCut txCut : Bool) (s : State) : Host.Outcome State Fault Refusal :=
  let p := s.port port
  if p.up then .next (s.linkFalls port rxCut txCut)
  else if p.anStart.isSome && p.an.isSome then .next (s.linkFalls port false false)
  else .next s

/-- A written AN_RESTART, or ENABLE cleared (R239): the link goes down if it is up, and negotiation restarts. Whether the write cuts a
frame in either direction is free (assumption log 136). -/
def State.anRestarts (s : State) (port : Port) : State :=
  if (s.port port).up then
    { s with free := s.free + 1 }.linkFalls port (Config.openValue s.free 13 % 2 = 1) (Config.openValue s.free 14 % 2 = 1)
  else s.modPort port (fun q => q.negotiate s.tick false)

/-- AN_RESTART (R239). -/
def execAnRestart (port : Port) (s : State) : Host.Outcome State Fault Refusal := .next (s.anRestarts port)

/-- RECEIVE_LPI_ENTER (R243): the partner may send LPI once EEE is resolved. -/
def execReceiveLpiEnter (port : Port) (s : State) : Host.Outcome State Fault Refusal :=
  let p := s.port port
  if p.up && p.an.elim false (·.eee) && !p.rxLpi then
    .next ((s.modPort port (fun q => { q with rxLpi := true })).bumpPort port 0x1A8)
  else .next s

/-- RECEIVE_LPI_EXIT (R243). -/
def execReceiveLpiExit (port : Port) (s : State) : Host.Outcome State Fault Refusal :=
  .next (s.modPort port (fun q => { q with rxLpi := false }))

/-! ### LLDP (R241 to R245) -/

/-- The TLVs of an LLDPDU: type of 7 bits, length of 9 bits. -/
def lldpTlvs : Nat → Bytes → List (Nat × Bytes)
  | 0, _ => []
  | fuel + 1, b =>
    if b.length < 2 then []
    else
      let h := u16 b 0
      if h / 512 = 0 then [] else (h / 512, slice b 2 (h % 512)) :: lldpTlvs fuel (b.drop (2 + h % 512))

/-- The IEEE 802.3 EEE TLV: organisation 00-12-0F, subtype 5, then Transmit Tw and Receive Tw (assumption log 13). -/
def eeeTlv (ts : List (Nat × Bytes)) : Option (Nat × Nat) :=
  (ts.find? (fun x => x.1 == 127 && x.2.take 4 == [0x00#8, 0x12#8, 0x0F#8, 5#8] && 8 ≤ x.2.length)).map
    (fun x => (u16 x.2 4, u16 x.2 6))

/-- The agent takes an LLDPDU that arrived in a tick (R241, R242, R244): it replaces the one before, EEE TLV or none. -/
def PortState.takeLldp (p : PortState) (tick came : Nat) (b : Bytes) : PortState :=
  let ts := lldpTlvs 512 (b.drop 14)
  let ttl := ((ts.find? (fun x => x.1 == 3)).map (fun x => u16 x.2 0)).getD 0
  let held := if ttl = 0 then none
    else match eeeTlv ts with
      | some (tx, rx) => some { rxTw := rx, txTw := tx, expiry := came + ttl * 125000 }
      | none => none
  let p1 := { p with eee := held }
  let own := p1.wantTx tick
  let echo (q : PortState) : Nat × Nat := (q.partner tick).elim (0, 0) (fun e => (e.txTw, e.rxTw))
  let changed := own != p.ownTx || echo p1 != echo p
  let refused := (p1.partner tick).elim false (fun e => 4 < e.rxTw)
  let p2 := { p1 with
    ownTx := own
    lldpDue := p.lldpDue || changed
    linkEvt := if refused then p.linkEvt ||| 4#4 else p.linkEvt
    lpiOk := p.lpiOk && p1.lpiMay tick }
  if p1.lpiMay tick then p2 else p2.wake tick

/-- LLDPDU_RECEIVE (R241): the oldest frame taken aside goes to the agent. -/
def execLldpduReceive (port : Port) (s : State) : Host.Outcome State Fault Refusal :=
  match (s.port port).lldpIn with
  | [] => .next s
  | (came, b) :: rest => .next (s.modPort port (fun q => { q.takeLldp s.tick came b with lldpIn := rest }))

/-- PARTNER_EEE_TLV_EXPIRE (R242): the TLV's time to live has run out; LPI is left and forbidden. -/
def execPartnerEeeTlvExpire (port : Port) (s : State) : Host.Outcome State Fault Refusal :=
  match (s.port port).eee with
  | some e =>
    if e.expiry ≤ s.tick then
      .next (s.modPort port (fun q => { q.wake s.tick with eee := none, lpiOk := false, lldpDue := true }))
    else .next s
  | none => .next s

/-- The MAC address of a port. -/
def State.macOf (s : State) : Port → Bytes
  | .a => s.ident.macA
  | .b => s.ident.macB

/-- The LLDPDU that a port sends (R241), closed by its FCS. The fallback Receive Tw equals the Receive Tw. -/
def State.lldpdu (s : State) (port : Port) : Bytes :=
  let p := s.port port
  let echo := (p.partner s.tick).elim (0, 0) (fun e => (e.txTw, e.rxTw))
  let tl (type : Nat) (v : Bytes) : Bytes := toBe 2 (type * 512 + v.length) ++ v
  let eee := [0x00#8, 0x12#8, 0x0F#8, 5#8] ++ toBe 2 p.ownTx ++ toBe 2 p.rxTw ++ toBe 2 p.rxTw
    ++ toBe 2 echo.1 ++ toBe 2 echo.2
  let body := [0x01#8, 0x80#8, 0xC2#8, 0#8, 0#8, 0x0E#8] ++ s.macOf port ++ toBe 2 0x88CC
    ++ tl 1 ([4#8] ++ s.ident.macA) ++ tl 2 ([3#8] ++ s.macOf port) ++ tl 3 (toBe 2 120) ++ tl 127 eee ++ tl 0 []
  let body := if body.length < 60 then padTo 60 body else body
  body ++ toLe 4 (fcsOf body)

/-- LLDPDU_SEND (R241): every 3,750,000 ticks and after a change of the advertised values, while LLDP_TX is set. The
frame joins the bulk queue; `event` carries the Transmit Tw that it advertises. -/
def execLldpduSend (port : Port) (s : State) : Host.Outcome State Fault Refusal :=
  let p := s.port port
  let due := p.lldpDue || p.lldpLast.elim true (fun t => t + 3750000 ≤ s.tick)
  if !(p.ctl 7 && p.ctl 0 && due) then .next s
  else
    let f : OutFrame := { (default : OutFrame) with kind := .lldp, raw := s.lldpdu port, event := p.ownTx }
    .next (s.modPort port (fun q => { q.enqueue s.tick [f] with lldpLast := some s.tick, lldpDue := false }))

/-- Nothing is queued for a port. -/
def PortState.quiet (p : PortState) : Bool := p.short.isEmpty && p.bulkFirst.isEmpty && p.bulk.isEmpty

/-- TRANSMIT_LPI_ENTER (R246): LPI_HOLD whole ticks idle with nothing queued. -/
def execTransmitLpiEnter (port : Port) (s : State) : Host.Outcome State Fault Refusal :=
  let p := s.port port
  if p.lpiAllowed s.tick && !p.txLpi && p.quiet && p.idleSince + p.lpiHold < s.tick then
    .next ((s.modPort port (fun q => { q with txLpi := true })).bumpPort port 0x1A0)
  else .next s

/-! ### The transmitter (R251, R256) -/

/-- A tag is free once the final reply has left or was discarded, and the descriptor with it when no unit holds a
reference (R251, R270, R276). -/
def State.releaseDesc (s : State) (id : Nat) : State :=
  let s := s.modDesc id (fun d => { d with tagFree := true })
  { s with descs := s.descs.filter (fun d => !(d.tagFree && d.refs == 0)) }

/-- What follows once a frame has left or been discarded: its tag, and the reset that waits for it (R135, R408). -/
def State.frameGone (s : State) (f : OutFrame) : State :=
  let s := match f.final with
    | some id => s.releaseDesc id
    | none => s
  match f.resets with
  | some (ty, cause) => s.causeReset ty cause
  | none => s

/-- The frame that the transmitter begins next, and the port without it (R256). -/
def PortState.takeNext (p : PortState) : Option (OutFrame × PortState) :=
  match p.short with
  | f :: rest => some (f, { p with short := rest })
  | [] =>
    match p.bulkFirst with
    | f :: rest => some (f, { p with bulkFirst := rest })
    | [] =>
      match p.bulk with
      | f :: rest => some (f, { p with bulk := rest })
      | [] => none

/-- Value bytes sent in a tenant's reply are metered (R182). -/
def State.meterRead (s : State) (f : OutFrame) : State :=
  if f.kind == .reply && f.fn < 32 then
    s.modTenant f.fn (fun t => { t with period := { t.period with bytesRead := t.period.bytesRead + f.payload.length } })
  else s

/-- A frame that leaves a port whose link is up. -/
def State.sendFrame (s : State) (port : Port) (f : OutFrame) : State :=
  let s := s.modPort port (fun q =>
    let q := { q with sent := f.bytes (s.macOf port) q.addrs :: q.sent, idleSince := s.tick }
    if f.kind == .lldp then { q with twNext := some f.event, lpiOk := q.lpiMay s.tick } else q)
  let s := s.bumpPort port 0x180
  let s := if f.isFirst then s.bumpPort port 0x188 else s
  let s := if f.kind == .lldp then s.bumpPort port 0x198 else s
  { s.meterRead f with power := { s.power with actUntil := s.tick + 6250 } }

/-- TRANSMIT_FRAME (R251, R256, R257). -/
def execTransmitFrame (port : Port) (s : State) : Host.Outcome State Fault Refusal :=
  match (s.port port).takeNext with
  | none => .next s
  | some (f, q) =>
    let s := s.modPort port (fun _ => q)
    if q.up then .next ((s.sendFrame port f).frameGone f)
    else .next ((s.bumpPort port 0x190).frameGone f)

/-! ### Events on their way out (R459 to R462) -/

/-- The port that the head event is formed for (R462). -/
def State.eventPort (s : State) : Option Port :=
  let recent : Option (Port × Port) :=
    match s.portA.reg, s.portB.reg with
    | some (_, x), some (_, y) => if x ≥ y then some (.a, .b) else some (.b, .a)
    | some _, none => some (.a, .b)
    | none, some _ => some (.b, .a)
    | none, none => none
  recent.bind (fun r =>
    if (s.port r.1).up then some r.1
    else if (s.port r.2).reg.isSome && (s.port r.2).up then some r.2
    else none)

/-- An event message (Table 13.3). -/
def eventFrame (e : Event) (dst : Source) (key : Bytes) : OutFrame :=
  { (default : OutFrame) with
    kind := .event, dst := dst, fn := 62, seq := e.number % 2 ^ 32, ext := e.number, mac := some key, event := e.code,
    param := BitVec.ofNat 64 e.number,
    payload := toBe 8 e.wall ++ toBe 2 e.a ++ toBe 2 e.b ++ toBe 4 e.c, segIndex := 0, segCount := 1, total := 16 }

/-- EVENT_FORM (R462): the head event joins the bulk queue of its port, or waits. -/
def execEventForm (s : State) : Host.Outcome State Fault Refusal :=
  match s.events.queue, s.eventPort, s.macKey 62 with
  | e :: rest, some p, some k =>
    match (s.port p).reg with
    | some (src, _) =>
      let s := s.modPort p (fun q => q.enqueue s.tick [eventFrame e src k])
      .next { s with events := ({ s.events with queue := rest }).flush s.tick s.ledger.wall }
    | none => .next s
  | _, _, _ => .next s

end Sys2Proof.Machine
end

