-- ==== Sys2Proof/Machine/Update.lean ====
section
/-! DEFINITION. Field update (chapter 11): the session, the manifest and its checks, blocks, commit, activation,
confirmation and the halter. The loader's phases belong to start-up. -/
namespace Sys2Proof.Machine
open Sys2Proof

/-! ### The manifest (R402, R403) -/

/-- The block count of a manifest. -/
def manifestBlocks (m : Bytes) : Nat := u16 m 2

/-- The image version of a manifest. -/
def manifestVersion (m : Bytes) : Nat := u32 m 4

/-- A part entry of a manifest (Table 11.4). -/
structure Part where
  kind   : Nat
  first  : Nat
  count  : Nat
  length : Nat
  zeros  : Bool
  digest : Bytes
  deriving DecidableEq, Repr

/-- The six part entries. -/
def manifestParts (m : Bytes) : List Part :=
  (List.range 6).map (fun i =>
    let b := slice m (32 + 64 * i) 64
    { kind := byteAt b 0, first := u16 b 4, count := u16 b 6, length := u32 b 8,
      zeros := allZero (slice b 1 3) && allZero (slice b 12 4), digest := slice b 16 48 })

/-- Parts in kind order whose blocks tile the image from a block on. -/
def partsTile (n : Nat) : (kind next : Nat) → List Part → Bool
  | _, next, [] => next == n
  | kind, next, p :: rest =>
    p.kind == kind && p.zeros && p.first == next && 1 ≤ p.count && (p.count - 1) * 65536 + 1 ≤ p.length &&
      p.length ≤ p.count * 65536 && partsTile n (kind + 1) (next + p.count) rest

/-- One block of an image. -/
def Image.block (x : Image) (i : Nat) : Bytes := (assoc x.blocks i).getD []

/-- The bytes of a part's blocks. -/
def Image.part (x : Image) (p : Part) : Bytes := ((List.range p.count).map (fun i => x.block (p.first + i))).flatten

/-- Check 1, FORMAT: head and part entries follow Tables 11.3 and 11.4 and R403, and Revoke does not name the signing
key. -/
def Image.formatOk (x : Image) : Bool :=
  let m := x.manifest
  let n := manifestBlocks m
  m.length == 512 && byteAt m 0 == 6 && byteAt m 1 == 6 && 1 ≤ n && n ≤ 4096 && byteAt m 11 < 4 && byteAt m 12 < 16 &&
    byteAt m 13 < 4 && allZero (slice m 18 14) && partsTile n 1 0 (manifestParts m) &&
    (manifestParts m).all (fun p => allZero ((x.part p).drop p.length)) && !bit (byteAt m 12) (byteAt m 11)

/-- Checks 1 to 5 of Table 11.5, which the loader repeats (R410): the reason of the first that fails. -/
def State.manifestFault (s : State) (x : Image) : Option Nat :=
  let m := x.manifest
  if !x.formatOk then some 1
  else if !bit (byteAt m 13) (if s.ident.cap = 768 then 1 else 0) then some 2
  else if s.update.revoked.getLsbD (byteAt m 11) then some 3
  else if !ecdsaVerify (Config.makerKey (byteAt m 11)) (m.take 416) (slice m 416 96) then some 4
  else if byteAt m 10 < s.update.minSec then some 5
  else none

/-- Check 6: the format levels in force lie in the image's ranges. -/
def State.formatGap (s : State) (m : Bytes) : Bool :=
  !(byteAt m 14 ≤ s.update.dataFmt && s.update.dataFmt ≤ byteAt m 15 && byteAt m 16 ≤ s.update.cfgFmt &&
    s.update.cfgFmt ≤ byteAt m 17)

/-- Check 7: the first part whose digest differs. -/
def Image.badPart (x : Image) : Option Part :=
  (manifestParts x.manifest).find? (fun p => sha384 ((x.part p).take p.length) != p.digest)

/-- The checks that the loader repeats on an image that it loads (R410): 1 to 5 on its manifest, and 7. An image with no manifest held
is one from before the model's first update, whose manifest the spec does not give (DESIGN CHOICE, log 140). -/
def State.imageGood (s : State) (x : Image) : Bool :=
  x.manifest.isEmpty || ((s.manifestFault x).isNone && x.badPart.isNone)

/-- The image with some of its blocks as another image has them. -/
def Image.mixed (x from_ : Image) (blocks : List Nat) : Image :=
  { x with blocks := blocks.foldl (fun l i => insertSorted i (from_.block i) l) x.blocks }

/-- The background reads and programs of some blocks of a slot in one of its copies, for UPDATE (R279): on the channels on which they lie
(assumption log 140). -/
def State.queueBlocks (s : State) (copy : Byte) (blocks : List Nat) : State :=
  (List.range 16).foldl (fun s ch =>
    let n := (blocks.filter (fun i => Config.channelOf 34 [copy] i % 16 == ch)).length
    if n = 0 then s else s.queueWork ch 34 (n * 65536) none) s

/-! ### The checks of Table 11.2 -/

/-- The session state counts for an opcode: COMMITTED is left when UPD_ACTIVATE has been answered (Table 11.1). -/
def Update.inSession (x : Update) (want : Session) : Bool := x.session == want && !x.activated

/-- The checks of Table 11.2 in the order of its columns; `starting` marks the two opcodes of the last three columns. -/
def State.updateGate (s : State) (want : Session) (starting : Bool) : Option Status :=
  if s.secure.lc = .locked || s.secure.lcRunning || !s.update.inSession want then some .stateForbids
  else if !starting then none
  else if s.power.leverOpen then some .leverOpen
  else if s.power.reserve < 90 then some .holdupLow
  else if s.span.reconfig then some .spanReconfig
  else none

/-! ### Receiving (R405, R406) -/

/-- UPD_BEGIN (R405). -/
def State.serveBegin (s : State) (d : Desc) : State :=
  match s.updateGate .idle true with
  | some st => s.refuse d.id st 0
  | none =>
    let n := manifestBlocks d.value
    if d.value.length ≠ 512 || n < 1 || n > 4096 then s.refuse d.id .length 0
    else
      let s := s.accept d.id .waiting
      let s : State := { s with update := { s.update with
        stage := { manifest := d.value, blocks := [] }
        received := []
        session := .receiving
        lastOp := s.tick } }
      s.finish d.id 0

/-- UPD_BEGIN. -/
def execUpdBegin (id : Nat) (s : State) : Host.Outcome State Fault Refusal :=
  .next (s.serve id 0x80 (fun d s => s.serveBegin d))

/-- UPD_BLOCK (R406): index, length, CRC. -/
def State.serveBlock (s : State) (d : Desc) : State :=
  match s.updateGate .receiving false with
  | some st => s.refuse d.id st 0
  | none =>
    let i := d.bitsOf 15 0
    if manifestBlocks s.update.stage.manifest ≤ i then s.refuse d.id .range 0
    else if d.value.length ≠ 65536 then s.refuse d.id .length 0
    else if crc32c d.value ≠ d.bitsOf 63 32 then (s.bump 0x000A0108).refuse d.id .blockCrc 0
    else
      let s := (((s.accept d.id .waiting).bump 0x000A0100).queueBlocks 0 [i]).queueBlocks 1 [i]
      { s with update := { s.update with blockDescs := s.update.blockDescs ++ [(d.id, i, d.value)], lastOp := s.tick } }

/-- UPD_BLOCK. -/
def execUpdBlock (id : Nat) (s : State) : Host.Outcome State Fault Refusal :=
  .next (s.serve id 0x81 (fun d s => s.serveBlock d))

/-- The oldest block under way has been programmed and read back: received where a copy is good (R406). A block of a session
that has ended meanwhile is refused with STATE_FORBIDS (assumption log 32). -/
def State.endBlock (s : State) (id i : Nat) (data : Bytes) (good : Bool) : State :=
  if !s.update.inSession .receiving then s.refuse id .stateForbids 0
  else if good then
    let s : State := { s with update := { s.update with
      stage := { s.update.stage with blocks := insertSorted i data s.update.stage.blocks }
      received := i :: s.update.received.erase i } }
    s.finish id 0
  else
    let s : State := { s with update := { s.update with received := s.update.received.erase i } }
    (s.bump 0x000A0108).refuse id .blockCrc 0

/-- UPD_BLOCK_COMPLETE (R406). -/
def execUpdBlockComplete (copyAGood copyBGood : Bool) (s : State) : Host.Outcome State Fault Refusal :=
  match s.update.blockDescs with
  | [] => .next s
  | (id, i, data) :: rest =>
    let s : State := { s with update := { s.update with blockDescs := rest } }
    .next (s.endBlock id i data (copyAGood || copyBGood))

/-! ### Committing (R407, R419) -/

/-- UPD_COMMIT (R407): refused until every block is marked received. -/
def State.serveCommit (s : State) (d : Desc) : State :=
  match s.updateGate .receiving false with
  | some st => s.refuse d.id st 0
  | none =>
    if !(List.range (manifestBlocks s.update.stage.manifest)).all s.update.received.contains then
      s.refuse d.id .stateForbids 0
    else
      let s := (s.accept d.id .waiting).queueBlocks 0 (List.range (manifestBlocks s.update.stage.manifest))
      { s with update := { s.update with commits := s.update.commits ++ [d.id], lastOp := s.tick } }

/-- UPD_COMMIT. -/
def execUpdCommit (id : Nat) (s : State) : Host.Outcome State Fault Refusal :=
  .next (s.serve id 0x82 (fun d s => s.serveCommit d))

/-- The first check of Table 11.5 that the staged image fails, with the part of reason 7. -/
def State.commitFault (s : State) : Option (Nat × Option Part) :=
  match s.manifestFault s.update.stage with
  | some r => some (r, none)
  | none =>
    if s.formatGap s.update.stage.manifest then some (6, none)
    else s.update.stage.badPart.map (fun p => (7, some p))

/-- The staged level lies outside the window that the last rein received carries (R419). -/
def State.levelOutside (s : State) : Bool :=
  match s.span.rein with
  | some r =>
    let l := s.update.stage.level
    s.span.counts && (l.1 != byteAt r 20 ||
      2 ≤ max (byteAt r 22) l.2 - min (byteAt r 21) l.2)
  | none => false

/-- The end of an UPD_COMMIT whose checks found a fault, or none. -/
def State.endCommit (s : State) (id : Nat) : State :=
  if !s.update.inSession .receiving then s.refuse id .stateForbids 0
  else match s.commitFault with
    | some (reason, part) =>
      let kind := part.elim 0 (·.kind)
      let gone (i : Nat) : Bool := part.elim false (fun p => p.first ≤ i && i < p.first + p.count)
      let s : State := { s with update := { s.update with
        commitErr := (reason, kind), received := s.update.received.filter (fun i => !gone i) } }
      s.refuse id .signature (reason + kind * 256)
    | none =>
      let s : State := { s with update := { s.update with session := .committed, levelWarn := s.levelOutside } }
      s.finish id 0

/-- UPD_COMMIT_COMPLETE (R407). -/
def execUpdCommitComplete (s : State) : Host.Outcome State Fault Refusal :=
  match s.update.commits with
  | [] => .next s
  | id :: rest =>
    let s : State := { s with update := { s.update with commits := rest } }
    .next (s.endCommit id)

/-! ### Activation and confirmation (R408, R416) -/

/-- UPD_ACTIVATE (R408): DONE, and a controller reset once it has left. -/
def State.serveActivate (s : State) (d : Desc) : State :=
  match s.updateGate .committed true with
  | some st => s.refuse d.id st 0
  | none =>
    let s : State := { s with update := { s.update with activated := true, lastOp := s.tick } }
    (s.bump 0x000A0110).answerWith d.id .done 0 [] [] [] (some (0, 6))

/-- UPD_ACTIVATE. -/
def execUpdActivate (id : Nat) (s : State) : Host.Outcome State Fault Refusal :=
  .next (s.serve id 0x83 (fun d s => s.serveActivate d))

/-- The deadline of an UNCONFIRMED image (R412): for its self-tests, then for its confirmation. -/
def Update.deadline (x : Update) : Option Nat :=
  if x.session ≠ .unconfirmed then none
  else match x.testedAt with
    | none => some (x.startedAt + 1250000)
    | some t => some (t + 7500000)

/-- The image may be confirmed: UNCONFIRMED, its self-tests passed, its deadline not reached (R416, 11.5.1). -/
def State.confirmable (s : State) : Bool :=
  s.update.session == .unconfirmed && s.update.selfTestOk && s.update.deadline.elim false (fun t => s.tick < t)

/-- The confirmation (R416, R417). -/
def Update.confirm (x : Update) : Update :=
  let m := x.active.manifest
  { x with
    minSec := max x.minSec (byteAt m 10)
    revoked := x.revoked ||| BitVec.ofNat 4 (byteAt m 12)
    dataFmt := byteAt m 15
    cfgFmt := byteAt m 17
    newRecords := false
    session := .idle
    lastResult := 1
    starts := 0
    stage := Image.empty
    received := [] }

/-- HEALTH_CONFIRM (R416): one journal record, of UPDATE. -/
def State.serveConfirm (s : State) (d : Desc) : State :=
  if !s.confirmable then s.refuse d.id .stateForbids 0
  else
    let s := ({ s with update := s.update.confirm } : State).addRecord (s.bareRecord 34) []
    (s.finish d.id 0).raise 0x8605 0 0 (manifestVersion s.update.active.manifest)

/-- HEALTH_CONFIRM. -/
def execHealthConfirm (id : Nat) (s : State) : Host.Outcome State Fault Refusal :=
  .next (s.serve id 0x84 (fun d s => s.serveConfirm d))

/-! ### Abort and abandonment (R401) -/

/-- The session ends without an image: IDLE, STAGE empty, and the cause. -/
def Update.close (x : Update) (result : Nat) : Update :=
  { x with session := .idle, stage := Image.empty, received := [], lastResult := result }

/-- The session is one that an abort or abandonment ends. -/
def Update.endable (x : Update) : Bool := x.inSession .receiving || x.inSession .committed

/-- A write to UPD_CTRL. -/
def State.abortUpdate (s : State) (value : Nat) : State :=
  if bit value 0 && bits value 31 16 = 0x4142 && s.update.endable then { s with update := s.update.close 4 } else s

/-- UPD_ABORT. -/
def execUpdAbort (value : Word) (s : State) : Host.Outcome State Fault Refusal := .next (s.abortUpdate value.toNat)

/-- UPD_ABANDONED: 37,500,000 ticks with no update opcode accepted. -/
def execUpdAbandoned (s : State) : Host.Outcome State Fault Refusal :=
  if s.update.endable && s.update.lastOp + 37500000 ≤ s.tick then
    .next ({ s with update := s.update.close 5 }.raise 0x8602 0 0 0)
  else .next s

/-! ### Self-tests and the halter (R412, R413) -/

/-- SELF_TESTS_PASSED (R413). -/
def execSelfTestsPassed (s : State) : Host.Outcome State Fault Refusal :=
  if s.update.selfTestOk then .next s
  else .next { s with update := { s.update with selfTestOk := true, testedAt := some s.tick } }

/-- The halter's case holds. Whether the image has served it is the drive's surroundings' to say. -/
def Update.halterDue (x : Update) (tick : Nat) (why : HalterWhy) : Bool :=
  match why with
  | .notServed => true
  | .selfTestDeadline => x.testedAt.isNone && x.deadline.elim false (· ≤ tick)
  | .confirmDeadline => x.testedAt.isSome && x.deadline.elim false (· ≤ tick)
  | .selfTestFailed => x.session == .unconfirmed && !x.selfTestOk

/-- A halter restart (R412): counted, and announced at the following start. -/
def State.halt (s : State) (why : HalterWhy) : State :=
  let s : State := { s with update := { s.update with halted := some why } }
  (s.bump 0x000A0120).causeReset 0 5

/-- HALTER_RESET (R412, R413). -/
def execHalterReset (why : HalterWhy) (s : State) : Host.Outcome State Fault Refusal :=
  if s.update.halterDue s.tick why then .next (s.halt why) else .next s

end Sys2Proof.Machine
end

