-- ==== Sys2Proof/Machine/Power.lean ====
section
/-! DEFINITION. Power and the connector (12.1 to 12.4) and the adaptive loops of core, SerDes and thermal (8.9): the
lever, ACT_N, the power limit, thermal protection, the tick source, and clock steps. -/
namespace Sys2Proof.Machine
open Sys2Proof

/-! ### Sideband (R425, R426) -/

/-- LEVER_OPEN (R425): LEVER_N goes high. -/
def execLeverOpen (s : State) : Host.Outcome State Fault Refusal :=
  if s.power.leverOpen then .next s
  else .next ({ s with power := { s.power with leverOpen := true } }.raise 0x8601 0 0 0)

/-- LEVER_CLOSE (R425): LEVER_N goes low. -/
def execLeverClose (s : State) : Host.Outcome State Fault Refusal :=
  .next { s with power := { s.power with leverOpen := false } }

/-- ACT_N_RELEASE (R426): 6,250 ticks have passed since the last activity. -/
def execActNRelease (s : State) : Host.Outcome State Fault Refusal :=
  if s.power.actUntil ≤ s.tick then .next { s with power := { s.power with actUntil := 0 } } else .next s

/-- ACT_N is driven low. -/
def State.actLow (s : State) : Bool := s.tick < s.power.actUntil

/-- FAULT_N is driven low: RESCUE, thermal hold, SCRAPPED, or HOLDUP_FAIL (R426). -/
def State.faultLow (s : State) : Bool :=
  s.boot.phase == 15 || s.power.rails == .thermalHold || s.secure.lc == .scrapped || s.power.holdupFail

/-! ### Core voltage and frequency (R323, R324), and the power limit (R428) -/

/-- The clock brought down to its cap. -/
def Power.capped (p : Power) : Power := { p with vfStep := max 12 (min p.vfStep p.stepCap) }

/-- The core cycles of a tick at the clock in force (R12): 9,600 at 1.2 GHz, 14,400 at 1.8 GHz. -/
def Power.cycleBudget (p : Power) : Nat := 800 * p.vfStep

/-- VF_STEP_DOWN (R323): the worst margin is below 2 %. The frequency falls now, the voltage one tick later. -/
def execVfStepDown (margin : Int) (s : State) : Host.Outcome State Fault Refusal :=
  let s : State := { s with power := { s.power with margin := margin } }
  if margin < 20 && s.power.vfSafe.isNone && 12 < s.power.vfStep then
    .next ({ s with power := { s.power with vfStep := s.power.vfStep - 1, vfGood := 0 } }.bump 0x000B0200)
  else .next s

/-- VF_STEP_UP (R323): the margin has held 6 % or more for 1,250 ticks and the step is below the cap. The voltage rises now, the
frequency one tick later. -/
def execVfStepUp (margin : Int) (s : State) : Host.Outcome State Fault Refusal :=
  let s : State := { s with power := { s.power with margin := margin } }
  if 60 ≤ margin && 1250 ≤ s.power.vfGood && s.power.vfSafe.isNone && s.power.vfStep < s.power.stepCap then
    .next { s with power := { s.power with vfVolt := s.power.vfStep + 1, vfUp := true, vfGood := 0 } }
  else .next s

/-- VF_SAFE (R324): an implausible count or a negative margin sends the core to 1.2 GHz at 900 mV. -/
def execVfSafe (margin : Int) (plausible : Bool) (s : State) : Host.Outcome State Fault Refusal :=
  if plausible && 0 ≤ margin then .next { s with power := { s.power with margin := margin } }
  else
    let s : State := { s with power := { s.power with margin := margin, vfStep := 12, vfUp := false, vfSafe := some s.tick, vfGood := 0 } }
    .next ((s.bump 0x000B0208).raise 0x8505 0 0 0)

/-- VF_SAFE_END (R324): 125,000 ticks at the SAFE point. -/
def execVfSafeEnd (s : State) : Host.Outcome State Fault Refusal :=
  match s.power.vfSafe with
  | some t => if t + 125000 ≤ s.tick then .next { s with power := { s.power with vfSafe := none } } else .next s
  | none => .next s

/-- POWER_LIMIT (R428): above 27 W the clock cap falls one step, and holdup charging pauses. -/
def execPowerLimit (centiwatts : Nat) (s : State) : Host.Outcome State Fault Refusal :=
  let p := { s.power with cw := centiwatts }
  if 2700 < centiwatts then
    .next { s with power := { p with powerHigh := true, powerCap := max 12 (p.powerCap - 1) }.capped }
  else .next { s with power := p }

/-- POWER_LIMIT_RELEASE (R428): below 25 W both measures end. -/
def execPowerLimitRelease (centiwatts : Nat) (s : State) : Host.Outcome State Fault Refusal :=
  let p := { s.power with cw := centiwatts }
  if centiwatts < 2500 then .next { s with power := { p with powerHigh := false, powerCap := 18 } }
  else .next { s with power := p }

/-- SERDES_MARGIN (R325): a tap has stayed at its limit, or the eye below 10 mV, for 125,000 ticks. The time then counts afresh
(assumption log 135). -/
def execSerdesMargin (lane : Fin 4) (s : State) : Host.Outcome State Fault Refusal :=
  let l := s.power.lanes.getD lane.val Lane.reset
  if l.limitFor < 125000 && l.lowFor < 125000 then .next s
  else
    let s : State := { s with power := { s.power with
      lanes := s.power.lanes.modify lane.val (fun l => { l with limitFor := 0, lowFor := 0 }) } }
    .next ((s.bump 0x000B0218).raise 0x8003 lane.val 0 0)

/-! ### The thermal loop (R327) and thermal protection (R433) -/

/-- A reading, or the value that a sensor which fails is treated as. -/
def Power.reading (p : Power) (x : Option Int) : Int := x.getD ((p.thrStart : Int) + 10)

/-- The reduction that the loop asks for: the shared pool times the clamp of (T_D - THR_START) / 10, rounded down. -/
def wantedReduction (pool : Nat) (thrStart : Nat) (td : Int) : Nat :=
  pool * (max 0 (min 10 (td - (thrStart : Int)))).toNat / 10

/-- A reduction moved toward what is asked for by at most 1,024 descriptors. -/
def stepReduction (now want : Nat) : Nat := if now < want then min want (now + 1024) else max want (now - 1024)

/-- The thermal clock cap (R327). -/
def thermalCap (p : Power) (td tj : Int) : Bool :=
  let start : Int := p.thrStart
  if start + 10 ≤ td || 105 ≤ tj then true
  else if td < start + 8 && tj < 100 then false
  else p.clockCap

/-- The thermal loop's update of power and clock from the temperatures. -/
def Power.thermalLoop (p : Power) (pool : Nat) (t : Temps) : Power :=
  let td := p.reading t.td
  let tj := p.reading t.tj
  { p with
    td := td
    tj := tj
    tbank := p.reading t.tbank
    sensorBad := t.td.isNone || t.tj.isNone || t.tbank.isNone
    reduction := stepReduction p.reduction (wantedReduction pool p.thrStart td)
    clockCap := thermalCap p td tj }.capped

/-- THERMAL_LOOP_UPDATE (R327, Table 8.7), every 1,250 ticks. Sensor indices follow PWR_TEMP (assumption log 33). -/
def execThermalLoopUpdate (temps : Temps) (s : State) : Host.Outcome State Fault Refusal :=
  if s.tick < s.power.reducedAt + 1250 then .next s else
  let s : State := { s with power := { s.power.thermalLoop (16128 - s.floorSum) temps with reducedAt := s.tick } }
  let sensor (s : State) (x : Option Int) (i : Nat) : State := if x.isNone then s.raise 0x8504 i 0 0 else s
  .next (sensor (sensor (sensor s temps.td 0) temps.tj 1) temps.tbank 2)

/-- THERMAL_HIGH (R433): T_D of 85 °C or above. -/
def execThermalHigh (td : Int) (s : State) : Host.Outcome State Fault Refusal :=
  if 85 ≤ td && !s.power.thermal then
    .next ({ s with power := { s.power with td := td, thermal := true } }.raise 0x8501 (ofSigned 16 td) 0 0)
  else .next s

/-- THERMAL_OK (R433): T_D below 80 °C. -/
def execThermalOk (td : Int) (s : State) : Host.Outcome State Fault Refusal :=
  if td < 80 && s.power.thermal then
    .next ({ s with power := { s.power with td := td, thermal := false } }.raise 0x8502 (ofSigned 16 td) 0 0)
  else .next s

/-! ### The tick source (R438, R439) -/

/-- TICK_IN_QUALIFIED (R438): a window that passes makes TICK_IN the source, and its phase error is slewed at 0.4 ns a
tick; one that fails starts a new window. -/
def execTickInQualified (missed : Bool) (ppm phase : Nat) (s : State) : Host.Outcome State Fault Refusal :=
  if s.power.srcReq && !s.power.srcIn && !missed && ppm ≤ 20 then
    .next { s with power := { s.power with
      srcIn := true, tickOk := true, slewUntil := s.tick + ceilDiv (5 * phase) 2 } }
  else .next s

/-- TICK_LOST (R439): the TCXO takes over without a step. -/
def execTickLost (byFrequency : Bool) (s : State) : Host.Outcome State Fault Refusal :=
  if s.power.srcIn then
    .next (({ s with power := { s.power with srcIn := false, tickOk := false, slewUntil := 0 } }.bump
      0x00000110).raise 0x8506 (flagAt byFrequency 0) 0 0)
  else .next s

end Sys2Proof.Machine
end

