-- ==== Sys2Proof/Machine/StartUp.lean ====
section
/-! DEFINITION. Resets and start-up (12.5, 12.6), with the resident loader (11.4): what a reset ends, what it keeps, and the
phases of Table 12.5 as one command. -/
namespace Sys2Proof.Machine
open Sys2Proof

/-! ### What every reset ends (R132, R442, R443, R463) -/

/-- Counters of the standby domain (Table 12.9), which types 0 and 1 keep (R443). -/
def standbyCounters : List Nat := [0x00000100, 0x00000108, 0x00000118]

/-- A port with nothing queued and its fields at their Reset values. A kept link goes on with what was negotiated. -/
def PortState.cleared (p : PortState) (mac : Bytes) (link reg : Bool) : PortState :=
  let q := { PortState.reset mac with sent := p.sent, reg := if reg then p.reg else none }
  if link then
    { q with
      up := p.up, anStart := p.anStart, an := p.an, page := p.page, nullPages := p.nullPages, withdrawn := p.withdrawn, fallback := p.fallback, txLpi := p.txLpi,
      rxLpi := p.rxLpi, eee := p.eee, ownTx := p.ownTx, twInUse := p.twInUse, twNext := p.twNext, lpiOk := p.lpiOk,
      lldpLast := p.lldpLast, lldpDue := p.lldpDue, idleSince := p.idleSince }
  else q

/-- A tenant without its leases, its cached values and the issuers of what runs. -/
def Tenant.cleared (t : Tenant) : Tenant :=
  { t.freeLeases with
    recs := t.recs.map (fun r => { r with cached := false })
    longOp := t.longOp.map (fun l => { l with issuer := none })
    resetBy := []
    emptied := false
    startDue := false
    closeShown := 0
    meterLen := 60
    meterSel := 0 }

/-- A pattern slot as a start-up loads it: the last image persisted, in one bank, as current (R352). -/
def PatSlot.restored (p : PatSlot) : PatSlot :=
  { p with bank0 := p.persisted, bank1 := none, current := false, load := [] }

/-- The tiles without scans, loads and selections. -/
def Awl.cleared (x : Awl) : Awl :=
  { x with
    slots := x.slots.map PatSlot.restored, scans := [], stolen := (0, []), rebuildUntil := 0, entrySel := 0,
    laneSel := 0 }

/-- The engine without its order and tree; the journal, the digests and the clocks stand. -/
def Ledger.cleared (x : Ledger) : Ledger := { x with order := [], tree := none, peak := 0, reads := [] }

/-- Media without what SRAM and DRAM held, every pass of the burnisher begun anew; the read-reference loop restarts with its offsets
at 0 where every loop does (Table 12.4, assumption log 34). -/
def Media.cleared (x : Media) (loops : Bool) : Media :=
  let zero (b : Block) : Block := if loops then { b with offsets := b.offsets.map (fun _ => 0) } else b
  { x with
    words := x.words.filter (fun p => 2 ^ 33 ≤ p.1)
    blocks := x.blocks.map zero
    walked := x.walked.map (fun _ => 0)
    visited := []
    rrefDie := 0, rrefBlock := 0, lifeSel := 0 }

/-- The key store without what was being stored; the transition's issuer is gone (R392). -/
def Secure.cleared (x : Secure) (cold : Bool) : Secure :=
  { x with keyLoads := [], lcDesc := none, lcHeld := none, entFail := false, fuseSel := 0, reseeds := if cold then 0 else x.reseeds }

/-- Field update without requests under way. The session stands (R399). -/
def Update.cleared (x : Update) : Update :=
  { x with blockDescs := [], commits := [], selfTestOk := false, testedAt := none }

/-- Power and loops as a reset leaves them (R323, R443, Table 12.4): the core loop at 1.6 GHz, the others restarted by every
type but 0. -/
def Power.cleared (x : Power) (loops : Bool) : Power :=
  let x := { x with thrStart := 70, vfCap := 18, vfStep := 16, vfVolt := 16, vfUp := false, vfSafe := none, vfGood := 0, srcReq := false }
  if loops then
    { x with
      reduction := 0, clockCap := false, sensorBad := false, powerCap := 18, powerHigh := false,
      lanes := List.replicate 4 Lane.reset }
  else x

/-- The span part of a reset: the batches, the rein and every ring exchange under way are gone; the record, the member id
and the sets' places in their orders stand. -/
def Span.cleared (x : Span) (lanes : Bool) : Span :=
  let off : RingLane := { lock := false, since := 0 }
  { Span.reset with
    state := x.state, me := x.me, cfg := x.cfg, identity := x.identity, out := x.out
    sets := x.sets.map (fun y => { y with fenced := false, readOnly := false, degraded := false, skew := false, away := [], mark := none })
    laneUp := if lanes then x.laneUp else off
    laneDn := if lanes then x.laneDn else off }

/-- The record whose valid word stood in copy A alone when the reset or the power loss came (R301): the front entry's, if its writing
had got so far, which is free (assumption log 127). Its request is gone. -/
def State.caught (s : State) : Option (Entry × Effects) :=
  if Config.openValue s.free 9 % 2 = 1 then
    (s.frontEffects.map (fun p => ({ p.1 with desc := none }, p.2))).orElse (fun _ => s.ledger.half)
  else s.ledger.half

/-- Replay (R301): a record complete in one copy only is completed in the other, and the write is committed (8.2.1). -/
def State.replay (s : State) : State :=
  match s.ledger.half with
  | some (e, fx) =>
    ({ s with ledger := { s.ledger with half := none } }.commitEntry e s.ledger.digestCount fx).watchJournal
  | none => s

/-- The blocks that the loader copies from a slot: those of the image it holds. -/
def Image.span (x : Image) : List Nat := List.range (manifestBlocks x.manifest)

/-- The copying of a phase cut short (R409): whole rounds of 16 blocks are done, and the manifest, which is copied last, stands as it
was. -/
def Update.cutCopy (x : Update) (phase : Nat) (dst src : Image) (rounds : Nat) : Update × Image :=
  let done := src.span.take (16 * rounds)
  ({ x with phase := phase, copying := phase, done := done }, dst.mixed src done)

/-- The loader cut short in a phase that copies (R409), by a power-down or a reset while an activation or a return to FALLBACK is under
way: the phase it was in and the rounds done are free (assumption log 140). A phase that a start resumed goes on where it was. -/
def Update.cutLoader (x : Update) (which rounds : Nat) : Update :=
  if x.copying != 0 then x
  else if x.activated then
    match which % 3 with
    | 1 => let p := x.cutCopy 1 x.fallbackI x.active rounds; { p.1 with fallbackI := p.2 }
    | 2 =>
      let p := { x with fallbackI := x.active }.cutCopy 2 x.active x.stage rounds
      { p.1 with active := p.2 }
    | _ => x
  else if x.session = .unconfirmed && (x.halted.isSome || 3 ≤ x.starts) && which % 3 = 1 then
    let p := x.cutCopy 4 x.active x.fallbackI rounds
    { p.1 with active := p.2 }
  else x

/-- What a cut leaves of the loader: it runs only with the rails on, before the drive serves. -/
def State.cutLoader (s : State) : State :=
  if s.boot.phase < 9 && s.power.rails == .on then
    { s with update := s.update.cutLoader (Config.openValue s.free 28) (Config.openValue s.free 29) }
  else s

/-- What every reset ends. `loops` is set for every type but 0, `cold` where a cold start follows, `standby` where the
standby domain keeps its fields. A durable ceiling whose background write is under way stays due (DESIGN CHOICE, log 112). -/
def State.endVolatile (s : State) (loops cold standby : Bool) : State :=
  let s := s.cutLoad.cutTransition.cutLoader
  { s with
    portA := s.portA.cleared s.ident.macA (!loops) (!cold)
    portB := s.portB.cleared s.ident.macB (!loops) (!cold)
    descs := [], segs := [], creating := [], removing := []
    tenants := s.tenants.map Tenant.cleared
    free := s.free + 1
    ledger := { s.ledger.cleared with half := s.caught }
    awl := (s.awl.settleView s.awl.view).cleared
    cinch := s.cinch.restarted cold
    media := s.media.cleared loops
    secure := s.secure.cleared cold
    update := s.update.cleared
    power := { s.power.cleared loops with tripped := s.power.tripped && standby }
    smbus := if standby then s.smbus else Smbus.reset
    events := { Events.reset with
      atTick := s.events.atTick, taken := s.events.taken
      pend := if standby then s.events.pend else 0#8
      en := if standby then s.events.en else 0xFF#8 }
    span := s.span.cleared (!loops)
    counters := if standby then s.counters.filter (fun p => standbyCounters.contains p.1) else []
    latches := [] }

/-! ### Power-down and cold start (R429, R430, R434, R440) -/

/-- The tick count journalled, and the rails turned off. -/
def State.railsOff (s : State) (rails : Rails) (standby : Bool) : State :=
  let s := s.endVolatile true true standby
  { s with
    ledger := { s.ledger with tickJournal := s.tick }
    power := { s.power with rails := rails, actUntil := 0 }
    boot := { s.boot with phase := 0, pending := none } }

/-- A clean power-down (R430): the lifetime record is copied to pSLC. -/
def State.cleanDown (s : State) (rails : Rails) (standby : Bool) : State :=
  let s := s.railsOff rails standby
  { s with media := { s.media with lifeCopy := s.media.life, copiedAt := s.tick } }

/-- The clocks of a cold start (R173, R440): the tick count resumes one above the journalled value, the wall time at the
journalled one, with TIME_SET clear. -/
def Ledger.coldClocks (x : Ledger) : Ledger :=
  { x with wall := x.wallJournal, timeSet := false, debt := 0, slewing := false, stall := 0 }

/-- The standby domain's fields at a cold start (R22, R443, R467): kept through thermal hold, else at their Reset values; every
latch is zero again, also one that SMBus set while the rails were off. -/
def State.standbyStart (s : State) : State :=
  if s.power.rails = .thermalHold then { s with latches := [] }
  else
    { s with
      latches := []
      counters := []
      smbus := Smbus.reset
      events := { s.events with pend := Events.reset.pend, en := Events.reset.en }
      power := { s.power with tripped := false } }

/-- A cold start begins (R445): rails on, the TCXO as source, and the holdup bank charging from an energy that the spec does
not state (R431). -/
def State.coldStart (s : State) (type cause : Nat) : State :=
  let s := s.standbyStart
  let power := { s.power with
    rails := .on, srcIn := false, tickOk := false, slewUntil := 0, thermal := false, charging := true, holdupLow := false,
    holdupFail := false, energy := Config.openValue s.free 2 % 2 ^ 16 }
  { s with
    tick := s.ledger.tickJournal + 1
    ledger := s.ledger.coldClocks
    media := { s.media with life := s.media.life.modify 16 (· + 1), firstPass := true }
    power := power
    boot := { s.boot with phase := 1, pending := none, cause := cause, rtype := type }
    tenants := s.tenants.map (fun t =>
      if t.state = .absent then t else { t with profile := { t.profile with authReq := true } })
    free := s.free + 1 }

/-- POWER_FAIL (R302, R429): programs in progress, which R303 limits, finish, the tick count is journalled, and the rails go off. -/
def execPowerFail (programs : Nat) (s : State) : Host.Outcome State Fault Refusal :=
  if !s.power.supplyGood then .next s
  else
    let s := if s.power.rails == .on && 0 < min programs s.power.programLimit then
        { s with media := { s.media with life := s.media.life.modify 17 (· + 1) } }
      else s
    let s := if s.power.rails == .on then s.railsOff .off false else { s with power := { s.power with rails := .off } }
    .next { s with power := { s.power with supplyGood := false } }

/-- POWER_GOOD (R429, R445): a cold start, unless PWR_DIS is high. -/
def execPowerGood (s : State) : Host.Outcome State Fault Refusal :=
  if s.power.supplyGood then .next s
  else
    let s : State := { s with power := { s.power with supplyGood := true } }
    .next (if s.power.pwrDis then s else s.coldStart 3 10)

/-- PWR_DIS_ASSERT (R430): a clean power-down. -/
def execPwrDisAssert (s : State) : Host.Outcome State Fault Refusal :=
  let s : State := { s with power := { s.power with pwrDis := true } }
  .next (if s.power.rails == .on then s.cleanDown .off false else s)

/-- PWR_DIS_RELEASE (R430): a cold start, unless the drive is unpowered or in thermal hold. -/
def execPwrDisRelease (s : State) : Host.Outcome State Fault Refusal :=
  if !s.power.pwrDis then .next s
  else
    let s : State := { s with power := { s.power with pwrDis := false } }
    .next (if s.power.rails == .off && s.power.supplyGood then s.coldStart 3 9 else s)

/-- THERMAL_TRIP (R434): a power-down into thermal hold. -/
def execThermalTrip (td tj : Int) (s : State) : Host.Outcome State Fault Refusal :=
  if (95 ≤ td || 120 ≤ tj) && s.power.rails == .on then
    let s := s.cleanDown .thermalHold true
    .next { s with
      power := { s.power with td := td, tj := tj, tripped := true, tripTemps := some (td, tj) }
      boot := { s.boot with phase := 14 } }
  else .next s

/-- THERMAL_HOLD_END (R434): a cold start with cause TRIP, unless PWR_DIS is high. -/
def execThermalHoldEnd (s : State) : Host.Outcome State Fault Refusal :=
  if s.power.rails != .thermalHold then .next s
  else if s.power.pwrDis then
    .next { s with power := { s.power with rails := .off }, boot := { s.boot with phase := 0 } }
  else .next (s.coldStart 3 8)

/-! ### Resets (R441 to R444) -/

/-- FULL_RESET (R135): DONE, and a reset of the chosen type once it has left. -/
def State.serveFullReset (s : State) (d : Desc) : State :=
  s.answerWith d.id .done 0 [] [] [] (some (d.bitsOf 1 0, 1))

/-- FULL_RESET. -/
def execFullReset (id : Nat) (s : State) : Host.Outcome State Fault Refusal :=
  .next (s.serve id 0x73 (fun d s => s.serveFullReset d))

/-- The cause that a keyed write to GLB_RESET records, by its path. -/
def resetCause : Path → Nat
  | .mgmt => 2
  | .smbus => 3

/-- GLB_RESET_CONTROLLER (R441). -/
def execGlbResetController (path : Path) (s : State) : Host.Outcome State Fault Refusal :=
  .next (s.causeReset 0 (resetCause path))

/-- GLB_RESET_DRIVE (R441). -/
def execGlbResetDrive (path : Path) (s : State) : Host.Outcome State Fault Refusal :=
  .next (s.causeReset 1 (resetCause path))

/-- GLB_RESET_POWER (R441). -/
def execGlbResetPower (path : Path) (s : State) : Host.Outcome State Fault Refusal :=
  .next (s.causeReset 2 (resetCause path))

/-- RESET_N_ASSERT (R441): a type 1 reset, held until the pin is released. -/
def execResetNAssert (s : State) : Host.Outcome State Fault Refusal :=
  let s : State := { s with power := { s.power with resetN := false } }
  .next (s.causeReset 1 4)

/-- RESET_N_RELEASE (R445): start-up may begin. -/
def execResetNRelease (s : State) : Host.Outcome State Fault Refusal :=
  .next { s with power := { s.power with resetN := true } }

/-- A reset of a type begins (R441, R442). -/
def State.performReset (s : State) (type cause : Nat) : State :=
  if type = 2 then
    let s := s.cleanDown .off false
    { s with boot := { s.boot with cause := cause, rtype := 2 } }
  else
    let s := (s.endVolatile (type == 1) false true).bump 0x00000100
    { s with boot := { s.boot with phase := 0, pending := none, cause := cause, rtype := type } }

/-- RESET_BEGIN (R444). -/
def execResetBegin (s : State) : Host.Outcome State Fault Refusal :=
  match s.boot.pending with
  | some (type, cause) => .next (s.performReset type cause)
  | none => .next s

/-! ### Saved settings (R443) -/

/-- The settings of a port that are saved. -/
def PortState.toSave (p : PortState) : SavedPort :=
  { ctrl := p.ctrl, addrs := p.addrs, txMtu := p.txMtu, lpiHold := p.lpiHold }

/-- The present settings. -/
def State.settings (s : State) : Saved :=
  let c := s.cinch
  { ports := [s.portA.toSave, s.portB.toSave]
    cinch :=
      { preemptEn := c.preemptEn, margin := c.margin, starveTicks := c.starveTicks, wSpan := c.wSpan, wScrub := c.wScrub,
        wUpdate := c.wUpdate, viewCh := c.viewCh, viewReq := c.viewReq }
    thrStart := s.power.thrStart
    vfCap := s.power.vfCap
    meterLens := s.created.map (fun t => (t, (s.tenant t).meterLen))
    srcReq := s.power.srcReq }

/-- A write to GLB_CFG_SAVE. -/
def State.saveSettings (s : State) (value : Nat) : State :=
  if bits value 31 16 = 0x5356 then { s with boot := { s.boot with saved := some s.settings } } else s

/-- GLB_CFG_SAVE (R443). -/
def execGlbCfgSave (value : Word) (s : State) : Host.Outcome State Fault Refusal := .next (s.saveSettings value.toNat)

/-- Saved settings written into a port's fields. -/
def PortState.restore (p : PortState) (x : Option SavedPort) : PortState :=
  match x with
  | some y => { p with ctrl := y.ctrl, addrs := y.addrs, txMtu := y.txMtu, lpiHold := y.lpiHold }
  | none => p

/-- Saved settings written into their fields (Table 12.5, CONFIG). -/
def State.restoreSettings (s : State) : State :=
  match s.boot.saved with
  | none => s
  | some x =>
    let c := x.cinch
    { s with
      portA := s.portA.restore x.ports[0]?
      portB := s.portB.restore x.ports[1]?
      cinch := { s.cinch with
        preemptEn := c.preemptEn, margin := c.margin, starveTicks := c.starveTicks, wSpan := c.wSpan,
        wScrub := c.wScrub, wUpdate := c.wUpdate, viewCh := c.viewCh, viewReq := c.viewReq }
      power := Power.capped { s.power with thrStart := x.thrStart, vfCap := x.vfCap, srcReq := x.srcReq }
      tenants := s.tenants.mapIdx (fun i t => match assoc x.meterLens i with
        | some n => if t.state = .absent then t else { t with meterLen := n }
        | none => t) }

/-! ### CONTROL (R446, Table 12.6) -/

/-- The highest tick stamp and the highest ordered wall time in the commit area. -/
def Ledger.highest (x : Ledger) : Nat × Nat :=
  x.journal.foldl (fun acc r => (max acc.1 r.tick, max acc.2 r.wall)) (0, 0)

/-- The state with every sequence space changed. -/
def State.mapSpaces (s : State) (f : Space → Space) : State := { s with spaces := s.spaces.map (fun l => l.map f) }

/-- One lost item of the control area rebuilt. Only a cold start takes its clocks from the control area; the tick count moves
forward alone (R440). -/
def State.rebuildItem (s : State) (item : Nat) : State :=
  let cold := 2 ≤ s.boot.rtype
  match item with
  | 1 => s.mapSpaces (fun x => { x with c := x.d })
  | 2 => if cold then { s with tick := max s.tick (s.ledger.highest.1 + 2 ^ 20) } else s
  | 3 => if cold then { s with ledger := { s.ledger with wall := s.ledger.highest.2, timeSet := false } } else s
  | 4 =>
    { s with tenants := s.tenants.map (fun t => { t with longOp := t.longOp.map (fun l => { l with percent := 0 }) }) }
  | 5 =>
    { s with update := { s.update with
      session := .idle, stage := Image.empty, received := [], activated := false, starts := 0, newRecords := false,
      copying := 0, done := [] } }
  | 6 =>
    let spend (k : KeySlot) : KeySlot := if k.kind = .data then { k with nonce := 2 ^ 48, ceiling := 2 ^ 48 } else k
    { s with secure := { s.secure with tack := s.secure.tack.map spend } }
  | 7 => (s.secure.tack.filter (fun k => !k.inPslc)).foldl (fun s k => s.loseKey k) s
  | 8 => { s with media := { s.media with life := s.media.lifeCopy } }
  | _ => s

/-- The control area read and rebuilt where both copies of an item are lost. -/
def State.readControl (s : State) (items : List Nat) : State :=
  items.foldl (fun s i => (s.rebuildItem i).raise 0x8308 i 0 0) s

/-! ### FUSE (R392, R393) -/

/-- Torn rows are repaired, and a transition whose INTENT row stands without its DONE row is carried out again (R392, R393). -/
def State.resumeTransition (s : State) (intentGood : Bool) : State :=
  let intent := if intentGood then s.secure.intent else none
  let x := s.secure.repairRows intent
  let s : State := { s with secure := { x with intent := none, lcRunning := false } }
  match x.openPair with
  | none => s
  | some (k, frm, to_) =>
    ((s.endTransition frm to_ k (intent.elim [] (·.value))).bump 0x00070128).raise 0x8702 k to_.code 0

/-! ### LOADER (11.4, R414, R415) -/

/-- An image starts: fresh deadlines (R412, R414). -/
def Update.started (x : Update) (tick : Nat) : Update := { x with startedAt := tick, testedAt := none, selfTestOk := false }

/-- A phase cut short is resumed (R409): the blocks of the round that was in progress, whose done bits are clear, are copied again, and
a resume after power loss is counted. -/
def State.resumePhase (s : State) (src : Image) : State :=
  let u := s.update
  if u.copying = 0 then s
  else
    let left := src.span.length - u.done.length
    let s : State := { s with
      update := { u with copying := 0, done := [], again := Config.openValue s.free 30 % (min 16 left + 1) }
      free := s.free + 1 }
    if 2 ≤ s.boot.rtype then s.bump 0x000A0128 else s

/-- RESTORE (R410, R411, R415): FALLBACK, if it passes the loader's checks, becomes ACTIVE and runs as a confirmed image; else the
loader enters RESCUE. -/
def State.restoreImage (s : State) (result : Nat) (fallbackGood : Bool) : State :=
  let s := if s.update.copying = 4 then s.resumePhase s.update.fallbackI else s
  let u := { s.update with lastResult := result, phase := 4, copying := 0, done := [], activated := false }
  if !(fallbackGood && s.imageGood u.fallbackI) then { s with update := u, boot := { s.boot with phase := 15 } }
  else
    let u := { u with
      active := u.fallbackI, session := .idle, stage := Image.empty, received := [], newRecords := false, starts := 0 }
    ({ s with update := u }.bump 0x000A0118).raise 0x8604 result 0 0

/-- The staged image placed and started (Table 11.6, phases 1 to 3). A PLACE that is resumed leaves FALLBACK as SAVE left it (R409). -/
def State.placeImage (s : State) (f : Findings) : State :=
  let placing := s.update.copying == 2
  let s := s.resumePhase (if placing then s.update.stage else s.update.active)
  let u := { s.update with fallbackI := if placing then s.update.fallbackI else s.update.active, phase := 2 }
  if !f.placeGood then { s with update := u }.restoreImage 7 f.fallbackGood
  else
    let u := { u with active := u.stage, session := .unconfirmed, starts := 1, activated := false, phase := 3 }
    let s : State := { s with update := { u with newRecords := u.cfgFmt < byteAt u.active.manifest 17 } }
    if f.activeGood && s.imageGood u.active then s else s.restoreImage 6 f.fallbackGood

/-- The loader at a start (R408 to R415). -/
def State.loadImage (s : State) (f : Findings) : State :=
  let u := s.update
  if u.activated then s.placeImage f
  else if u.session = .unconfirmed && u.halted.isSome then s.restoreImage 2 f.fallbackGood
  else if u.session = .unconfirmed && 3 ≤ u.starts then s.restoreImage 3 f.fallbackGood
  else if !(f.activeGood && s.imageGood u.active) then s.restoreImage 6 f.fallbackGood
  else if u.session = .unconfirmed then { s with update := { u with starts := u.starts + 1 } }
  else s

/-! ### KEYS and CONFIG (R261, R344, R371, R377) -/

/-- A tenant's state after a restart (R261). -/
def Tenant.restarted (t : Tenant) : Tenant :=
  let resumes := t.longOp.elim false (fun l => l.kind == .format || l.kind == .rekey)
  match t.state with
  | .absent | .stopped | .removing => t
  | .running | .squashing | .wedged => { t with state := .running, endStopped := false, longOp := none }
  | .busy | .draining =>
    if resumes then { t with state := .busy, endStopped := false }
    else { t with state := .running, endStopped := false, longOp := none }

/-- Every tenant at its state after a restart; a removal is resumed and ends (R261). -/
def State.restartTenants (s : State) : State :=
  let s := ((List.range 32).filter (fun t => (s.tenant t).state == .removing)).foldl (fun s t => s.removeTenant t) s
  { s with tenants := s.tenants.map Tenant.restarted }

/-- Every invocation counter resumed at its ceiling (R377). -/
def Secure.resumeCounters (x : Secure) : Secure :=
  let resume (k : KeySlot) : KeySlot := if k.kind = .data then { k with nonce := max k.nonce k.ceiling } else k
  { x with tack := x.tack.map resume }

/-! ### SERVING (R384, R412, R434, R447) -/

/-- A drive that its record shows in a span rejoins it (R447). -/
def Span.rejoin (x : Span) (tick : Nat) : Span :=
  if x.state = .none || x.cfg.isNone then { x with state := .none }
  else { x with state := .joining, join := some { desc := none, began := tick, probed := false, reqSent := false } }

/-- The events that a start raises once it serves. -/
def State.startEvents (s : State) (entropyGood : Bool) : State :=
  let code (w : HalterWhy) : Nat := match w with
    | .notServed => 0
    | .selfTestDeadline => 1
    | .confirmDeadline => 2
    | .selfTestFailed => 3
  let s := match s.update.halted with
    | some w => { s with update := { s.update with halted := none } }.raise 0x8603 (code w) 0 0
    | none => s
  let s := match s.power.tripTemps with
    | some (td, tj) =>
      { s with power := { s.power with tripTemps := none } }.raise 0x8503 (ofSigned 16 td) (ofSigned 16 tj) 0
    | none => s
  let s : State := { s with secure := { s.secure with seeded := entropyGood, entFail := !entropyGood, reseedAt := s.tick } }
  if entropyGood then s else s.raise 0x8701 0 0 0

/-- A port opens (Table 12.5, SERVING): a link that was kept goes on, any other negotiates. A link is retrained where the
image that starts differs from the one that ran (Table 12.4). -/
def PortState.open_ (p : PortState) (tick : Nat) (changed : Bool) : PortState :=
  if p.up && p.ctl 0 && !changed then p else { p with up := false }.negotiate tick false

/-- Phases 5 to 9 once an image has been loaded. -/
def State.beginServing (s : State) (f : Findings) (before : Bytes) : State :=
  let changed := s.update.active.manifest != before
  let s : State := { s with
    secure := s.secure.resumeCounters
    update := s.update.started s.tick }
  let s := s.replay.restartTenants.restoreSettings
  let s : State := { s with
    boot := { s.boot with phase := 9 }
    power := { s.power with measureDue := s.tick }
    portA := s.portA.open_ s.tick changed
    portB := s.portB.open_ s.tick changed
    span := s.span.rejoin s.tick }
  s.startEvents f.entropyGood

/-- Start-up may run: powered, RESET_N released, and a reset or cold start begun (R445). -/
def State.mayStart (s : State) : Bool :=
  s.boot.phase < 9 && s.boot.pending.isNone && s.power.resetN && !s.power.pwrDis && s.power.supplyGood &&
    (s.power.rails == .on || (s.power.rails == .off && s.boot.rtype == 2))

/-- The phases of Table 12.5 in order. -/
def State.startUp (s : State) (f : Findings) : State :=
  let s := if s.power.rails == .off then s.coldStart 2 s.boot.cause else s
  let s := ((s.readControl f.lostItems).mapSpaces Space.resume).resumeTransition f.intentGood
  let before := s.update.active.manifest
  let s := s.loadImage f
  if s.boot.phase = 15 then s else s.beginServing f before

/-- START_UP (R445). -/
def execStartUp (found : Findings) (s : State) : Host.Outcome State Fault Refusal :=
  if s.mayStart then .next (s.startUp found) else .next s

end Sys2Proof.Machine
end

