-- ==== Sys2Proof/Machine/Media.lean ====
section
/-! DEFINITION. Media and integrity (chapter 8): the burnisher, refresh and block retirement, dies, the age counter,
word memory under SECDED, the lifetime record's copy, and the holdup bank. -/
namespace Sys2Proof.Machine
open Sys2Proof

/-! ### Words under SECDED (R304 to R307) -/

/-- The MED_ counters of a memory: correctable errors; uncorrectable ones 8 bytes above (Table 8.9). -/
def ceCounter : Mem → Nat
  | .sram => 0x100
  | .dram => 0x110
  | .mram => 0x120

/-- The execution buffer's tree ends with UNCORRECTABLE, and nothing of it is applied (Table 8.2). -/
def State.dropTree (s : State) : State :=
  match s.ledger.program with
  | some e => { s with ledger := { s.ledger with tree := none } }.decideFront e none (.error (.uncorrectable, 0, []))
  | none => s

/-- A staging word lost: the transfer that holds it is discarded, RESETTING (Table 8.2, R95). -/
def State.loseStaging (s : State) (id : Nat) : State :=
  match s.desc id with
  | some d =>
    match d.phase with
    | .transfer _ => (s.refuse id .resetting 0).discardTransfer d .segment
    | _ => s
  | none => s

/-- A commit record that both copies lost (Table 8.2): in set 0 every key that still holds the record's value is lost; a
span set is fenced. -/
def State.loseRecord (s : State) (number : Nat) : State :=
  match s.ledger.journal.find? (fun r => r.number == number) with
  | none => s
  | some r =>
    let s := if r.set = 0 then
        (r.keys.filter (fun k => ((s.tenant r.tenant).find k).elim false (fun x => x.version == r.seq))).foldl
          (fun s k => s.loseValue (r.tenant, k, r.seq) .uncorrectable) s
      else s.fence r.set
    s.raise 0x8302 r.tenant r.set 0

/-- The last incomplete batch of a list without one of its frames, or without its TRAILER. -/
def dropFrame (k : Nat) : List Batch → List Batch
  | [] => []
  | b :: rest =>
    if rest.any (fun c => !c.complete) || b.complete then b :: dropFrame k rest
    else
      let n := k % (b.frames.length + 1)
      (if n = b.frames.length then { b with trailer := none } else { b with frames := b.frames.eraseIdx n }) :: rest

/-- A frame of a ring buffer lost (Table 8.2): which frame of the newest batch lay in the word is free. R226 repairs it. -/
def State.loseFrame (s : State) : State :=
  { s with free := s.free + 1, span := { s.span with batches := dropFrame (Config.openValue s.free 12) s.span.batches } }

/-- The log of a resynchronisation lost (Table 8.2, R228): it names no source any more, so the next rein asks for the rest again;
what was streamed stays. -/
def State.loseLog (s : State) : State :=
  { s with span := { s.span with resync := s.span.resync.map (fun r => { r with source := 0xFF, log := [] }) } }

/-- The consequence of an uncorrectable word in a structure (Table 8.2). -/
def State.uncorrectable (s : State) (x : Struct) : State :=
  match x with
  | .index _ _ => s
  | .valueCache t key => s.modTenant t (fun x => x.modRec key (fun r => { r with cached := false }))
  | .descriptor id => match s.desc id with
    | some d => s.squash d
    | none => s
  | .execBuffer => s.dropTree
  | .ringBuffer _ => s.loseFrame
  | .staging id => s.loseStaging id
  | .resyncLog => s.loseLog
  | .commitRecord n otherGood => if otherGood then s else s.loseRecord n
  | .controlItem i otherGood => if otherGood then s else (s.rebuildItem i).raise 0x8308 i 0 0
  | .firmwareImage => s.causeReset 0 7
  | .unused => s

/-- The memory that holds a structure (Table 8.2). -/
def inMem (m : Mem) : Struct → Bool
  | .index _ _ => m == .sram || m == .dram
  | .valueCache _ _ | .staging _ | .resyncLog => m == .dram
  | .descriptor _ | .execBuffer | .ringBuffer _ | .firmwareImage => m == .sram
  | .commitRecord _ _ | .controlItem _ _ => m == .mram
  | .unused => true

/-- A word put in a memory. -/
def State.putWord (s : State) (k : Nat) (c : Cell) : State :=
  { s with media := { s.media with words := writeWord s.media.words k c } }

/-- A word read by the burnisher (R304, R306): corrected and written back with fresh check bits, reported, or poison. -/
def State.walkWord (s : State) (m : Mem) (addr : Nat) (found : Found) (x : Struct) : State :=
  let x := if inMem m x then x else .unused
  let old := readWord s.media.words (Mem.word m addr)
  if old = Cell.poisoned then (s.bumpMed 0x140).uncorrectable x
  else match found with
    | .good => s
    | .ce => (s.putWord (Mem.word m addr) (Cell.fresh old.data)).bumpMed (ceCounter m)
    | .ue => (s.bumpMed (ceCounter m + 8)).uncorrectable x

/-- UE returned to the writer of a word: the consequence is that of the structure the word lies in, which is free (R305, R307;
assumption log 124). -/
def State.writerTold (s : State) (m : Mem) (addr : Nat) : State :=
  let x := Config.structAt s.free (Mem.word m addr)
  { s with free := s.free + 1 }.uncorrectable (if inMem m x then x else .unused)

/-- A write of some bytes of a word (R305, R306): merged, or poison where the word cannot be corrected; eight bytes replace
the word. -/
def State.writeBytes (s : State) (m : Mem) (addr offset : Nat) (data : Bytes) (found : Found) : State :=
  let k := Mem.word m addr
  let old := readWord s.media.words k
  let merged := Cell.fresh (mergeBytes old.data offset data)
  if data.length = 8 then s.putWord k merged
  else if old = Cell.poisoned || found = .ue then ((s.putWord k Cell.poisoned).bumpMed 0x138).writerTold m addr
  else if found = .ce then (s.putWord k merged).bumpMed 0x130
  else s.putWord k merged

/-- PARTIAL_WORD_WRITE (R305, R306). A word outside its memory does not exist (Table 0.4). -/
def execPartialWordWrite (mem : Mem) (addr offset : Nat) (data : Bytes) (found : Found) (s : State) :
    Host.Outcome State Fault Refusal :=
  if addr < Mem.size mem && offset + data.length ≤ 8 && 0 < data.length then
    .next (s.writeBytes mem addr offset data found)
  else .fault .noSuchWord

/-! ### The flash patrol (R317, R319, R326) -/

/-- One level's offset moved a step toward balance where the two counts differ by more than 20 % of the greater (R326). The
spec does not say which sign is toward balance: it is fixed and free (assumption log 35). -/
def balanceStep (off : Int) (up down : Nat) : Int :=
  let sign : Int := if Config.openValue 0 4 % 2 = 0 then 1 else -1
  if max up down < 5 * (max up down - min up down) then
    clampOffset (off + (if down < up then sign else -sign))
  else off

/-- The patrol-driven update of a block's offsets, at most one per 125,000 ticks (Table 8.7). -/
def State.balance (s : State) (id : BlockId) (up down : List Nat) : State :=
  let b := s.media.block id
  if b.lastPatrol.elim true (fun t => t + 125000 ≤ s.tick) then
    let offs := b.offsets.mapIdx (fun i off => balanceStep off (up.getD i 0) (down.getD i 0))
    let hit := offs.any (fun n => n == 31 || n == -31)
    let s : State := { s with media := s.media.modBlock id (fun b => { b with
      offsets := offs
      limit := b.limit || hit
      errDue := b.errDue || hit
      lastPatrol := some s.tick }) }
    if hit && !b.limit then s.raise 0x8304 id.die 0 id.block else s
  else s

/-- A codeword read by the burnisher (R308, R309, R319): the values of a lost one are lost. -/
def State.walkFlash (s : State) (id : BlockId) (o : ReadOutcome) (corrected : Nat) (up down : List Nat)
    (victims : List (Nat × Bytes × Nat)) : State :=
  let s := (s.ladderCounted o).blockRead id o
  match o with
  | .step _ =>
    let s := s.balance id up down
    if 120 < corrected then { s with media := s.media.modBlock id (fun b => { b with errDue := true }) } else s
  | .lost => s.loseCodeword victims
  | .tagFail => s

/-- The pieces of a full pass (Table 8.5): flash by the written codewords, whose number is free, DRAM and SRAM by words, both MRAM
copies' commit area in use and control area by words, the tiles by entries. -/
def State.passPieces (s : State) (i : Nat) : Nat :=
  match i with
  | 0 => max 1 (Config.writtenCodewords s.free)
  | 1 => Mem.size .dram / 8
  | 2 => Mem.size .sram / 8
  | 3 => 2 * (s.ledger.used + 16 * 2 ^ 20) / 8
  | _ => 8192

/-- One more piece of a pass is read; after the last one the next pass begins. -/
def State.walked (s : State) (i : Nat) : State :=
  let ends := s.passPieces i ≤ s.media.walked.getD i 0 + 1
  let x := { s.media with walked := s.media.walked.set i (if ends then 0 else s.media.walked.getD i 0 + 1) }
  { s with
    free := if i = 0 then s.free + 1 else s.free
    media := if i = 0 && ends then { x with firstPass := false, visited := [] } else x }

/-- The first flash pass after a cold start reads the blocks oldest first: every older block has been met, and none that is younger
(R320). -/
def Media.oldestFirst (x : Media) (id : BlockId) : Bool :=
  let at_ := (x.block id).agedAt
  x.blocks.all (fun b => b.erased || at_ ≤ b.agedAt || x.visited.contains b.id) &&
    x.visited.all (fun v => (x.block v).agedAt ≤ at_)

/-- A codeword that the burnisher reads: its transfer on SCRUB, the read, and the pass (R317, R320). -/
def State.walkBlock (s : State) (id : BlockId) (o : ReadOutcome) (corrected : Nat) (up down : List Nat)
    (victims : List (Nat × Bytes × Nat)) : State :=
  if s.media.firstPass && !s.media.oldestFirst id then s
  else
    let s := s.queueWork (id.die / s.diesPerChannel) 33 codewordBytes none
    let s := { s with media := { s.media with visited := (id :: s.media.visited).eraseDups } }
    (s.walkFlash id o corrected up down victims).walked 0

/-- A rule entry whose parity the burnisher finds wrong is repaired from the shadow, a free one by writing it as free (R317, R360,
9.7.1; assumption log 125). -/
def State.walkTile (s : State) (parityGood : Bool) : State := if parityGood then s else s.rulePerr true

/-- BURNISHER_WALK (R317). -/
def execBurnisherWalk (piece : Piece) (s : State) : Host.Outcome State Fault Refusal :=
  if s.dark then .next s
  else match piece with
    | .word m addr found x =>
      let i := match m with
        | .dram => 1
        | .sram => 2
        | .mram => 3
      .next ((s.walkWord m addr found x).walked i)
    | .flash id o corrected up down victims => .next (s.walkBlock id o corrected up down victims)
    | .tile _ good => .next ((s.walkTile good).walked 4)

/-! ### Refresh (R319, R326) -/

/-- The counter of the first rule of R319 that asks for a block's refresh. -/
def refreshCause (age : Nat) (b : Block) : Option Nat :=
  if b.erased then none
  else if (if b.pslc then 3942000000000 else 972000000000) ≤ age - b.agedAt then some 0x168
  else if b.errDue then some 0x170
  else if 200000 < b.reads then some 0x178
  else none

/-- An erased block: one more cycle, and the limit remembered. -/
def Block.erase (b : Block) : Block :=
  { b with
    erased := true, cycles := b.cycles + 1, limitBefore := b.limit || b.limitBefore, limit := false, errDue := false,
    reads := 0, offsets := b.offsets.map (fun _ => 0) }

/-- A block programmed now. -/
def Block.program (b : Block) (pslc : Bool) (age : Nat) : Block :=
  { b with
    erased := false, pslc := pslc, agedAt := age, reads := 0, errDue := false, offsets := b.offsets.map (fun _ => 0) }

/-- Wear levelling lets a block take data (R328): a TLC block whose cycles, the coming one with them, lie at most 10 % above the
mean. Where 10 % of the mean is less than one cycle, one cycle more than the mean is let stand (assumption log 126). -/
def Media.levelled (x : Media) (b : Block) : Bool := b.pslc || 10000 * b.cycles ≤ 11 * x.meanCycles + 10000

/-- A block may take the data of another: it is not retired, is of the same kind (R293), and wear levelling lets it (R328). -/
def Media.takes (x : Media) (b y : Block) : Bool :=
  y.id != b.id && y.pslc == b.pslc && !x.retiredBlocks.contains y.id && x.levelled y

/-- BLOCK_REFRESH (R319): the data moves to another block and the old one is erased, or retired where it has met the limit
again after a reprogram (R326). Nothing is programmed with the rails off, nor while the bank can finish no program (R302,
R303). -/
def execBlockRefresh (blk to_ : BlockId) (s : State) : Host.Outcome State Fault Refusal :=
  let b := s.media.block blk
  match refreshCause s.media.age b with
  | none => .next s
  | some counter =>
    if s.dark || s.power.programLimit = 0 || !s.media.takes b (s.media.block to_) then .next s
    else
      let x := s.media.modBlock to_ (fun y => y.program b.pslc s.media.age)
      let x := x.modBlock blk Block.erase
      let life := (x.life.modify 20 (· + 1)).modify 3 (fun n => if b.pslc then n else max n (b.cycles + 1))
      let s := ({ s with media := { x with life := life } }).bumpMed counter
      .next (if b.limit && b.limitBefore then s.retireBlock blk else s)

/-! ### The age counter (R318) -/

/-- 2 ^ (r / 10) in units of 2 ^ -32, for r of 0 to 9. -/
def ageTenths : List Nat :=
  [4294967296, 4603231970, 4933621867, 5287724991, 5667243323, 6074000999, 6509953083, 6977194956, 7477972397, 8014692369]

/-- The multiplier m of a drive temperature, in units of 2 ^ -32. -/
def ageRateOf (td : Int) : Nat :=
  let d := (td - 40).toNat
  ageTenths.getD (d % 10) 0 * 2 ^ (d / 10)

/-- AGE_COUNTER_UPDATE (R318): every 1,250 ticks m follows T_D. -/
def execAgeCounterUpdate (s : State) : Host.Outcome State Fault Refusal :=
  if s.tick < s.media.ratedAt + 1250 then .next s
  else .next { s with media := { s.media with ageRate := ageRateOf s.power.td, ratedAt := s.tick } }

/-! ### Dies and wear (8.1.1, R329) -/

/-- The healthy spare, in 0.01 % of raw, once so many dies are retired: each die is an equal share of raw. -/
def State.spareAfter (s : State) (dies : Nat) : Nat := s.spareMade - ceilDiv (dies * 10000) (16 * s.diesPerChannel)

/-- WEAR_END follows the spare at 3 % of raw (R329). -/
def State.watchSpare (s : State) : State :=
  if s.media.spare < 300 && !s.media.wearEnd then
    { s with media := { s.media with wearEnd := true } }.raise 0x8404 0 s.media.spare 0
  else s

/-- DIE_RETIRE (8.1.1): its stripes stand rebuilt on other dies. -/
def execDieRetire (ch : Fin 16) (die : Nat) (s : State) : Host.Outcome State Fault Refusal :=
  if s.diesPerChannel ≤ die || s.media.retiredDies.contains (ch.val, die) then .next s
  else
    let dies := s.media.retiredDies ++ [(ch.val, die)]
    let number := ch.val * s.diesPerChannel + die
    let s : State := { s with media := { s.media with
      retiredDies := dies
      blocks := s.media.blocks.filter (fun b => b.id.die != number)
      spare := s.spareAfter dies.length
      life := s.media.life.modify 21 (· + 1) } }
    .next (s.raise 0x8303 ch.val die 0).watchSpare

/-! ### Small counts and copies (R311, R330) -/

/-- FABRIC_BURST_CUT (R311): what the target accepted stays, the rest changes nothing, and the cut is counted. -/
def execFabricBurstCut (s : State) : Host.Outcome State Fault Refusal := .next (s.bumpMed 0x198)

/-- LIFETIME_RECORD_COPY (R330): every 450,000,000 ticks. -/
def execLifetimeRecordCopy (s : State) : Host.Outcome State Fault Refusal :=
  if s.dark || s.tick < s.media.copiedAt + 450000000 then .next s
  else .next { s with media := { s.media with lifeCopy := s.media.life, copiedAt := s.tick } }

/-- What the lifetime record shows of the two temperature conditions of the service life (R435): the mean of T_D over powered ticks, in
half degrees from the bands' midpoints, and the ticks at 85 °C and above. -/
def Media.lifeTemperaturesMet (x : Media) : Bool :=
  let ticks := (x.life.drop 8).take 8
  let powered := ticks.foldl (· + ·) 0
  let weighted := (ticks.zip [50, 70, 90, 110, 130, 150, 165, 174]).foldl (fun n p => n + p.1 * p.2) 0
  weighted ≤ 80 * powered && 1000 * ticks.getD 7 0 ≤ powered

/-! ### The holdup bank (R303, R431) -/

/-- The bank measured: reserve, its lowest value, and the two thresholds. -/
def State.measureBank (s : State) (mj : Nat) : State :=
  let s : State := { s with power := { s.power with energy := mj, measureDue := s.tick + 10800000000 } }
  let r := s.power.reserve
  let low := s.power.holdupLow
  let fail := s.power.holdupFail
  let s : State := { s with
    power := { s.power with holdupLow := r < 90, holdupFail := r < 10 }
    media := { s.media with life := s.media.life.modify 18 (min r) } }
  let s := if r < 90 && !low then s.raise 0x8402 r 0 0 else s
  if r < 10 && !fail then s.raise 0x8403 r 0 0 else s

/-- HOLDUP_MEASURE (R303, R431): at every start-up and every 10,800,000,000 ticks; while the bank charges it is the estimate from the
bank voltage. -/
def execHoldupMeasure (millijoules : Nat) (s : State) : Host.Outcome State Fault Refusal :=
  if s.power.charging then .next { s with power := { s.power with energy := millijoules } }
  else if s.tick < s.power.measureDue then .next s
  else .next (s.measureBank millijoules)

/-- HOLDUP_CHARGE_COMPLETE (R431): the start-up measurement is made. -/
def execHoldupChargeComplete (millijoules : Nat) (s : State) : Host.Outcome State Fault Refusal :=
  if s.power.charging && !s.power.powerHigh then .next ({ s with power := { s.power with charging := false } }.measureBank millijoules)
  else .next s

end Sys2Proof.Machine
end

