-- ==== Sys2Proof/Machine/Ring.lean ====
section
/-! DEFINITION. Ring frames (5.2), what a member forwards and sends (R186, R189, R219), batches and their entries
(R194, R195, Table 5.4), commit and void (R203 to R207), application of entries (R202, R223, R339), and the layout of
slots that a rotation start brings (R191, R214). -/
namespace Sys2Proof.Machine
open Sys2Proof

/-! ### Frames (R189, Tables 5.1 and 5.2) -/

/-- A ring frame without length and CRC. -/
structure RingFrame where
  type   : Nat
  flags  : Nat
  source : Nat
  target : Nat
  body   : Bytes
  deriving DecidableEq, Repr

/-- The bytes of a frame (Table 5.1). -/
def RingFrame.bytes (f : RingFrame) : Bytes :=
  let b := [BitVec.ofNat 8 f.type, BitVec.ofNat 8 f.flags] ++ toBe 2 (f.body.length + 12) ++
    [BitVec.ofNat 8 f.source, BitVec.ofNat 8 f.target, 0#8, 0#8] ++ f.body
  b ++ toBe 4 (crc32c b)

/-- What a receiver makes of a delimited frame: `.error false` a CRC or length fault, `.error true` an unknown type. -/
def parseRing (b : Bytes) : Except Bool RingFrame :=
  let body := b.take (b.length - 4)
  if b.length < 12 || 9216 < b.length || u16 b 2 ≠ b.length || beNat (b.drop (b.length - 4)) ≠ crc32c body then
    .error false
  else if byteAt b 0 < 1 || 13 < byteAt b 0 then .error true
  else .ok { type := byteAt b 0, flags := byteAt b 1, source := byteAt b 4, target := byteAt b 5, body := body.drop 8 }

/-- Frame types that run in the primary direction (R186, Table 5.2). -/
def primaryType (t : Nat) : Bool := [1, 2, 3, 5, 6, 7, 8].contains t

/-- A frame that leaves in a direction is turned at this member, which stands beside a break (R219). -/
def Span.turns (x : Span) (primary : Bool) : Bool := x.wrapped && (if primary then x.brokenDn else x.brokenUp)

/-- A frame as it leaves in a direction, turned where this member turns it (R219). -/
def Span.outbound (x : Span) (primary : Bool) (f : RingFrame) : Bool × Bytes :=
  if x.turns primary then (!primary, { f with flags := f.flags ||| 1 }.bytes) else (primary, f.bytes)

/-- A frame forwarded, cut-through: it never waits for this member's own (R186, 5.1.1). -/
def Span.forward (x : Span) (primary : Bool) (f : RingFrame) : Span :=
  let sent := x.outbound primary f
  x.put sent.1 sent.2

/-- A frame of this member's own sent (R219, Table 5.8): REIN, BATCH and TRAILER go at the head of its window's time; every other
waits for its transmitter by priority (assumption log 129). -/
def Span.emit (x : Span) (primary : Bool) (f : RingFrame) : Span :=
  let sent := x.outbound primary f
  if txPrio f.type ≤ 3 then x.put sent.1 sent.2
  else { x with tx := queueTx { primary := sent.1, prio := txPrio f.type, bytes := sent.2 } x.tx }

/-- A frame of this member's own, in the direction of its type. -/
def State.ringSend (s : State) (type target : Nat) (body : Bytes) : State :=
  { s with span := s.span.emit (primaryType type) { type := type, flags := 0, source := s.span.me, target := target, body := body } }

/-- The receive buffer of a ring port (R229). -/
def Span.rx (x : Span) (primary : Bool) : Nat := if primary then x.rxUp else x.rxDn

/-- A frame taken into the 256 KiB receive buffer of its port (R229), from which the member has meanwhile worked off a number of
bytes that is free (assumption log 81); none where it does not fit. -/
def State.buffered (s : State) (primary : Bool) (frame : Bytes) : Option State :=
  let left := s.span.rx primary - Config.openValue s.free 10 + frame.length
  if 262144 < left then none
  else some { s with
    free := s.free + 1
    span := if primary then { s.span with rxUp := left } else { s.span with rxDn := left } }

/-- A frame from a member ends its silence (R213). -/
def Span.hear (x : Span) (m : Nat) : Span := { x with silent := eraseKey m x.silent }

/-- A frame has gone round when it comes back to its source in the direction of its type (assumption log 36). -/
def Span.wentRound (x : Span) (primary : Bool) (f : RingFrame) : Bool :=
  f.source == x.me && primary == primaryType f.type

/-- A frame concerns this member: it is addressed to it, or to all and seen in the direction of its type or at the point
where this member turns it (assumption log 36). -/
def Span.concerns (x : Span) (primary : Bool) (f : RingFrame) : Bool :=
  f.source != x.me && (f.target == x.me ||
    (f.target == 0xFF && (primary == primaryType f.type || x.turns primary)))

/-- A frame that arrives at a ring port (R186, R189, R229): dropped and counted, or forwarded as `fwd` leaves it (`none` for a
request that this member answers) and acted on. A drive in no span forwards nothing (5.1.1), and a frame of another
type than the command's is not that command's. -/
def State.ringIn (s : State) (port : RingPort) (frame : Bytes) (type : Nat) (fwd : RingFrame → Option RingFrame)
    (act : RingFrame → State → State) : State :=
  if s.span.state = .none || !s.serving then s
  else
    let primary := port == .up
    match parseRing frame with
    | .error false => s.bump (if primary then 0x00020130 else 0x00020138)
    | .error true => s.bump (if primary then 0x00020150 else 0x00020158)
    | .ok f =>
      if f.type ≠ type then s
      else match s.buffered primary frame with
        | none => { s with free := s.free + 1 }.bump (if primary then 0x00020140 else 0x00020148)
        | some s =>
          let s : State := { s with span := s.span.hear f.source }
          let s : State := match fwd f with
            | some g => if f.target = s.span.me || s.span.wentRound primary f then s
              else { s with span := s.span.forward primary g }
            | none => s
          if s.span.concerns primary f then act f s else s

/-! ### Entries and batches (Table 5.4, R190, R194) -/

/-- The kind of a tenant's entry by its number. -/
def entryKindOf (k : Nat) : EntryKind :=
  if k = 2 then .post else if k = 3 then .program else if k = 4 then .closeDay else .write

/-- The entry at the head of bytes, with the bytes after it. The one expected-version field is the version that the key
shall still have, from the option or from the hold. -/
def parseEntry (b : Bytes) : Option (BEntry × Bytes) :=
  let len := u32 b 4
  let kl := u16 b 16
  let rc := byteAt b 18
  let vl := u32 b 20
  if b.length < 32 || b.length < len || len ≠ 32 + kl + vl + 8 * rc then none
  else
    let value := slice b (32 + kl) vl
    let kind := entryKindOf (byteAt b 0)
    let e : Entry := { (default : Entry) with
      kind := kind, set := byteAt b 1, tenant := byteAt b 2, op := byteAt b 3
      param := BitVec.ofNat 64 (u64 b 8), key := slice b 32 kl, value := value
      heldVer := if bit (byteAt b 19) 0 then some (u64 b 24) else none
      readSet := (List.range rc).map (fun i => u64 b (32 + kl + vl + 8 * i)) }
    some ({ kind := byteAt b 0, ent := e, raw := b.take len, done := false, noted := none, recs := [] }, b.drop len)

/-- Up to a number of entries from bytes. -/
def parseEntries : Nat → Bytes → List BEntry
  | 0, _ => []
  | n + 1, b =>
    match parseEntry b with
    | some (e, rest) => e :: parseEntries n rest
    | none => []

/-- The bytes of an entry that is not a tenant's (kinds 5 to 9). -/
def systemBytes (kind op param : Nat) (value : Bytes) : Bytes :=
  [BitVec.ofNat 8 kind, 0#8, 0x3E#8, BitVec.ofNat 8 op] ++ toBe 4 (32 + value.length) ++ toBe 8 param ++ toBe 2 0 ++
    [0#8, 0#8] ++ toBe 4 value.length ++ toBe 8 0 ++ value

/-- A system entry in its batch form. -/
def BEntry.sealed (e : BEntry) : BEntry :=
  { e with raw := systemBytes e.kind e.ent.op e.ent.param.toNat e.ent.value }

/-- A tenant's own entry in its batch form, judged as every member judges it: by the one version field of Table 5.4. -/
def Entry.sealed (e : Entry) (tick wall : Nat) : BEntry :=
  { kind := e.kind.code
    ent := { e with heldVer := e.expect.orElse (fun _ => e.heldVer), expect := none, tick := tick, wall := wall }
    raw := e.bytes e.readSet, done := false, noted := none, recs := [] }

/-- Entries packed whole into frames of at most 9,216 bytes (R190): 20 bytes of frame and 36 of batch head are taken. -/
def packEntries : List BEntry → List BEntry → Nat → List (List BEntry)
  | [], cur, _ => if cur.isEmpty then [] else [cur]
  | e :: rest, cur, used =>
    if !cur.isEmpty && 9168 < used + e.raw.length then cur :: packEntries rest [e] e.raw.length
    else packEntries rest (cur ++ [e]) (used + e.raw.length)

/-- A BATCH body (Table 5.4). -/
def batchBody (first rotation index tick wall : Nat) (es : List BEntry) : Bytes :=
  toBe 8 first ++ toBe 8 rotation ++ toBe 2 index ++ toBe 2 es.length ++ toBe 8 tick ++ toBe 8 wall ++
    (es.map (·.raw)).flatten

/-- A TRAILER body (Table 5.2). -/
def trailerBody (first entries : Nat) (bodies : List Bytes) : Bytes :=
  toBe 8 first ++ toBe 4 entries ++ toBe 2 bodies.length ++ toBe 2 0 ++ sha384 bodies.flatten

/-- A batch of which nothing has arrived. -/
def Batch.empty (first rotation origin : Nat) : Batch :=
  { first := first, rotation := rotation, origin := origin, tick := 0, wall := 0, frames := [], entries := [],
    trailer := none, complete := false, covered := false, acks := [], committed := 0#16, void := 0#16, repair := none }

/-- The bodies of a batch in order. -/
def Batch.bodies (b : Batch) : List Bytes := b.frames.map (·.2)

/-- The number of entries of a batch: by its TRAILER, else those that have arrived. -/
def Batch.size (b : Batch) : Nat := b.trailer.elim (b.bodies.foldl (fun n f => n + u16 f 18) 0) (u32 · 8)

/-- The TRAILER matches what has arrived (R203): frame count, entry count and hash. -/
def Batch.matches_ (b : Batch) : Bool :=
  match b.trailer with
  | none => false
  | some t =>
    u16 t 12 == b.frames.length && (b.frames.map (·.1)) == List.range b.frames.length &&
      u32 t 8 == b.bodies.foldl (fun n f => n + u16 f 18) 0 && slice t 16 48 == sha384 b.bodies.flatten

/-- A batch once its frames are whole: its entries, with the ordered tick and wall time of its head (R174). -/
def Batch.assemble (b : Batch) : Batch :=
  if b.complete || !b.matches_ then b
  else
    let head := b.bodies.headD []
    let tick := u64 head 20
    let wall := u64 head 28
    let es := b.bodies.flatMap (fun f => parseEntries (u16 f 18) (f.drop 36))
    { b with
      tick := tick, wall := wall, complete := true
      entries := es.map (fun (e : BEntry) => { e with
        kind := if b.void.getLsbD e.ent.set then 0 else e.kind
        ent := { e.ent with tick := tick, wall := wall } }) }

/-- A frame of a batch added, by its index; a second copy is not. -/
def Batch.addFrame (b : Batch) (index : Nat) (body : Bytes) : Batch :=
  if (assoc b.frames index).isSome then b else { b with frames := insertSorted index body b.frames }

/-- The sets that a batch touches; 0 for its system entries. Void entries (kind 0) touch none. -/
def Batch.sets (b : Batch) : List Nat := ((b.entries.filter (fun e => e.kind != 0)).map (fun e => e.ent.set)).eraseDups

/-- The batch of an origin at an order index, the newest first. -/
def Span.findBatch (x : Span) (first origin : Nat) : Option Batch :=
  x.batches.reverse.find? (fun b => b.first == first && b.origin == origin)

/-- The span with one batch changed. -/
def Span.modBatch (x : Span) (first origin : Nat) (f : Batch → Batch) : Span :=
  { x with batches := x.batches.map (fun b => if b.first = first && b.origin = origin then f b else b) }

/-- The span with the batch that a BATCH or TRAILER frame belongs to. -/
def Span.openBatch (x : Span) (first rotation origin : Nat) : Span :=
  match x.findBatch first origin with
  | some b => if b.rotation = rotation || b.covered then x
    else { x with batches := x.batches.erase b ++ [Batch.empty first rotation origin] }
  | none => { x with batches := x.batches ++ [Batch.empty first rotation origin] }

/-! ### Membership of sets and majority (R200, R204, R207, R213) -/

/-- A member has been silent in three of its slots (R213). -/
def Span.lost (x : Span) (m : Nat) : Bool := 3 ≤ (assoc x.silent m).getD 0

/-- A member that counts toward the majority of a set: of the set, present, not silent, not known to be fenced for it or
OUTSIDE (R204). -/
def Span.countsFor (x : Span) (set m : Nat) : Bool :=
  bit (cfgSet x.record set) m && x.present.contains m && !x.lost m &&
    (if m = x.me then !x.fencedAt set && x.state != .outside
     else !x.outsiders.contains m && !((x.set set).elim [] (·.away)).contains m)

/-- The members that count for a set. -/
def Span.counting (x : Span) (set : Nat) : List Nat := (List.range 12).filter (x.countsFor set)

/-- The majority of a set's configured members (R200). -/
def Span.majority (x : Span) (set : Nat) : Nat := popcount (cfgSet x.record set) / 2 + 1

/-- The members whose ACK for a batch names a set. -/
def Batch.ackers (b : Batch) (set : Nat) : List Nat :=
  (b.acks.filter (fun a => set == 0 || bit a.2.toNat set)).map (·.1)

/-- A majority has acknowledged a batch for a set (R204). System entries need the ACKs of a majority of the present members
(assumption log 37). -/
def Span.acked (x : Span) (b : Batch) (set : Nat) : Bool :=
  if set = 0 then
    let here := x.present.filter (fun m => !x.lost m)
    here.length / 2 + 1 ≤ (here.filter (b.ackers 0).contains).length
  else x.majority set ≤ ((x.counting set).filter (b.ackers set).contains).length

/-- Commit noted for the batches in order (R204): a batch commits for a set once every earlier one has. -/
def Span.noteCommits (x : Span) : Span :=
  let step (acc : List Batch × List Nat) (b : Batch) : List Batch × List Nat :=
    let ready := b.sets.filter (fun k => b.complete && !acc.2.contains k && x.acked b k)
    let bits := b.committed ||| BitVec.ofNat 16 (mapOf ready)
    let held := b.sets.filter (fun k => !bits.getLsbD k)
    let blocked := if b.complete then held else List.range 16
    (acc.1 ++ [{ b with committed := bits }], acc.2 ++ blocked)
  { x with batches := (x.batches.foldl step ([], [])).1 }

/-- The lowest order index whose batch this member has not seen commit for every set that it touches (R206). -/
def Span.watermark (x : Span) : Nat :=
  (x.batches.filter (fun b => !b.complete || b.sets.any (fun k => !b.committed.getLsbD k))).foldl
    (fun m b => min m b.first) x.orderNext

/-! ### Refusing entries that were never applied -/

/-- Entries completed with a refusal, nothing of them applied. -/
def State.refuseAll (s : State) (es : List Entry) (st : Status) (param : Nat) : State :=
  es.foldl (fun s e => s.replyEntry e st param [] []) s

/-- The unsent entries that a test picks leave their batch with a refusal. -/
def State.dropOwn (s : State) (p : Entry → Bool) (st : Status) (param : Nat) : State :=
  ({ s with span := s.span.without p }).refuseAll (s.span.unsent.filter p) st param

/-- A set fenced, with the unsent entries of its origin (5.7.1). -/
def State.fenceSet (s : State) (set : Nat) : State := (s.fence set).dropOwn (fun e => e.set == set && e.kind != .closeDay) .fenced 0

/-- The entries of a set that have not committed are void (R207), in a batch that is still to be repaired too: on their origin they
complete with RANGE_READONLY. -/
def State.voidSet (s : State) (set : Nat) : State :=
  let open_ (b : Batch) : Bool := !b.committed.getLsbD set
  let mine := ((s.span.batches.filter (fun b => open_ b && b.origin == s.span.me)).flatMap (·.entries)).filter
    (fun e => e.ent.set == set && e.kind != 0 && !e.done)
  let void (b : Batch) : Batch :=
    if open_ b then
      { b with
        void := b.void ||| BitVec.ofNat 16 (2 ^ set)
        entries := b.entries.map (fun (e : BEntry) => if e.ent.set = set && !e.done then { e with kind := 0 } else e) }
    else b
  let s : State := { s with span := { s.span with batches := s.span.batches.map void } }
  (s.refuseAll (mine.map (·.ent)) .rangeReadonly 0).dropOwn (fun e => e.set == set) .rangeReadonly 0

/-- Degraded and read-only sets follow the members that count (R207); a set that becomes read-only is reported, and its
uncommitted entries are void. -/
def State.watchSet (s : State) (set : Nat) : State :=
  match s.span.set set with
  | none => s
  | some y =>
    let n := (s.span.counting set).length
    let maj := s.span.majority set ≤ n
    let s : State := { s with span := s.span.modSet set (fun y => { y with
      readOnly := !maj
      degraded := maj && n < popcount (cfgSet s.span.record set) }) }
    if y.readOnly || maj then s else (s.raise 0x8103 set 0 0).voidSet set

/-- Every set watched. -/
def State.watchSets (s : State) : State :=
  let s : State := { s with span := s.span.noteCommits }
  (s.span.sets.map (·.id)).foldl State.watchSet s

/-! ### Applying entries (R194, R202, R223, R225, R339, R376) -/

/-- The keys that an entry names. -/
def Entry.namedKeys (e : Entry) : List Bytes :=
  if e.kind = .post then ((bodyLegs e.value).getD []).map (·.key) else [e.key]

/-- This member's lookup gives every key the tenant and the set that the entry carries (R339). -/
def State.agrees (s : State) (e : Entry) : Bool := e.namedKeys.all (fun k => s.owns e.tenant k && s.keySet k == e.set)

/-- A resynchronisation of the set is under way here. -/
def Span.resyncing (x : Span) (set : Nat) : Bool := x.resync.elim false (fun r => r.set == set)

/-- The keys that the last logged entry of a resynchronisation wrote (R228 step 3). -/
def Span.logKeys (x : Span) (set : Nat) (keys : List Bytes) : Span :=
  let last (l : List LogItem) : List LogItem := l.modify (l.length - 1) (fun i => { i with keys := keys })
  { x with resync := x.resync.map (fun r => if r.set = set then { r with log := last r.log } else r) }

/-- An account header that stage 3 needs cannot be read (R225). -/
def State.headerLost (s : State) (e : Entry) (st : Status) : Bool :=
  (st == .uncorrectable || st == .integrityFail) &&
    (e.kind == .post || (e.kind == .program && (s.runEntry e).ended == some .halted))

/-- A close in the order (R178): applied by every member that holds a replica of a set that the tenant names, each of which
then reports the full digests of those sets (R224). -/
def State.applySpanClose (s : State) (e : Entry) (index : Nat) : State :=
  let s := s.applyClose e index
  let mine := (s.tenantSets e.tenant).filter (fun k => k != 0 && s.span.belongs k)
  let reports := mine.map (fun k =>
    ({ rot := s.span.rotation, kind := 2, set := k, who := s.span.me, index := index, digest := (s.span.set k).elim [] (·.digest) } : Report))
  { s with span := { s.span with toReport := s.span.toReport ++ reports } }

/-- A tenant's entry applied at its order index by a member of its set, with what was journalled of it (R203). A member that cannot
encrypt what the entry writes fences the set and counts the entry as done (R376). -/
def State.applyEntry (s : State) (e : Entry) (index : Nat) (noted : Option Nat) (recs : List Rec) : State :=
  if s.span.fencedAt e.set && !s.span.resyncing e.set then s.replyEntry e .fenced 0 [] []
  else if !s.agrees e then
    let s := (((s.fenceSet e.set).raise 0x8107 e.set e.tenant 0).bump 0x00050148).replyEntry e .fenced 0 [] []
    { s with span := s.span.modSet e.set (fun y => { y with skew := true }) }
  else match s.decideEntry e with
    | .error (st, p, key) =>
      if s.headerLost e st then (s.fenceSet e.set).replyEntry e .fenced 0 [] []
      else (s.countRefusal e.kind (if e.kind = .program then some (s.runEntry e) else none) st).refuseEntry e index st p key
    | .ok fx =>
      if (s.keyShort e.tenant (fx.writes.filter (·.2.isSome)).length).isSome && !fx.writes.isEmpty then
        let seq := s.nextSeqOf e.set
        (((s.issueSeq e.set).chainEntry e index seq .done).fenceSet e.set).replyEntry e .done seq [] fx.result
      else
        let s := (s.installEntry e index fx (noted == some (s.nextSeqOf e.set)) recs).watchJournal
        { s with span := s.span.logKeys e.set (fx.writes.map (·.1)) }

/-- This member applies an entry: it belongs to the entry's set, or holds a replica of a set that a closing tenant names
(R178, R194). -/
def State.takes (s : State) (e : BEntry) : Bool :=
  s.span.belongs e.ent.set ||
    (e.kind == 4 && (s.tenantSets e.ent.tenant).any (fun k => k != 0 && s.span.belongs k))

/-- The digest of a set as of the last entry of the previous rotation, once applied that far (R223). -/
def Span.markSets (x : Span) : Span :=
  let waits (k : Nat) : Bool := x.batches.any (fun b => b.first < x.markAt && !b.doneFor k)
  { x with sets := x.sets.map (fun y => if y.mark.isNone && !waits y.id then { y with mark := some y.digest } else y) }

/-- A configuration entry on its way (R221). -/
def Span.heedConfig (x : Span) (e : BEntry) : Span := if e.kind = 6 then { x with reconfig := true } else x

/-- A system entry that has committed (R125, R216, R212, R218, R221): SET_TIME is applied; a configuration and changes of
membership wait for the start of the next rotation. -/
def State.applySystem (s : State) (e : BEntry) : State :=
  let m := e.ent.param.toNat % 16
  match e.kind with
  | 5 => s.setTimeAt e.ent.desc e.ent.param.toNat
  | 6 => { s with span := { s.span with nextCfg := some e.ent.value, reconfig := true } }
  | 7 => { s with span := { s.span with joins := m :: s.span.joins.erase m } }
  | 8 | 9 => { s with span := { s.span with removes := m :: s.span.removes.erase m } }
  | _ => s

/-- Wall time after a SET_TIME at its place (R171): a step, or the start of a slew. -/
def steppedWall (w t : Nat) : Nat := if w ≤ t || 2000000 < w - t then t else w

/-- Wall time at a place in a batch: the origin's at the slot start, moved by each SET_TIME before it (R171, R176). -/
def Batch.wallAt (b : Batch) (i : Nat) : Nat :=
  (b.entries.take i).foldl (fun w e => if e.kind = 5 then steppedWall w (e.ent.param.toNat % 2 ^ 63) else w) b.wall

/-- One entry of a batch applied at its place. -/
def State.applyAt (s : State) (b : Batch) (i : Nat) (e : BEntry) : State :=
  let s : State := if s.span.markAt ≤ b.first + i then { s with span := s.span.markSets } else s
  let s := if 5 ≤ e.kind then s.applySystem e
    else if e.kind = 4 then s.applySpanClose { e.ent with wall := b.wallAt i } (b.first + i)
    else s.applyEntry e.ent (b.first + i) e.noted e.recs
  { s with span := s.span.modBatch b.first b.origin (fun b => { b with entries := b.entries.modify i (fun e => { e with done := true }) }) }

/-! ### The order in which entries are applied (R194, R202, R205, R206) -/

/-- The records that an entry needs and that still have to be read from flash: a PATCH its value, a posting its account headers, a
program what its tree names (R113, R152, R169). -/
def State.stillUnread (s : State) (e : Entry) : List Bytes :=
  if s.span.fencedAt e.set && !s.span.resyncing e.set then []
  else s.uncached e.tenant (match e.kind with
    | .write => if e.op = 0x0B then [e.key] else []
    | .post => e.namedKeys
    | .program =>
      let t := s.runEntry e
      e.key :: t.called ++ t.keysRead ++ t.legs.map (·.key)
    | .closeDay => [])

/-- A flash read of a record that a span entry needs begins on the SPAN requester (R169, R279), unless one is under way. -/
def State.fetchReplica (s : State) (t : Nat) (key : Bytes) : State :=
  match (s.tenant t).find key with
  | none => s
  | some r =>
    if s.ledger.reads.any (fun x => x.2.1 == t && x.2.2.key == key && x.2.2.version == r.version) then s
    else
      let id := s.nextDesc
      { s with
        nextDesc := s.nextDesc + 1
        ledger := { s.ledger with reads := s.ledger.reads ++ [(id, t, r)] } }.queueFlows
        (Config.channelOf t r.key r.version) 32 (Flow.parts (some id) 32 (r.frames.length + 28) false)

/-- A walk through the order: the sets of which an entry has to wait, and whether a CLOSE_DAY or SET_TIME waits. -/
structure Walk where
  s       : State
  held    : List Nat
  barrier : Bool

/-- One entry of the walk. Entries of one set are applied in their order; CLOSE_DAY and SET_TIME, which touch more than one set, only
where everything before them has been applied, and nothing after them before them (R176, R178, R194). `go` says that the entry may be
made visible. An entry whose records are not at hand waits for their reads, and a tenant's for the rule table while it is rebuilt (R360);
a `look` ahead does without them. -/
def Walk.entry (look go : Bool) (b : Batch) (w : Walk) (i : Nat) (e : BEntry) : Walk :=
  let alone := e.kind == 4 || e.kind == 5
  if e.done || e.kind = 0 then w
  else if 6 ≤ e.kind then (if go then { w with s := w.s.applyAt b i e } else w)
  else if e.kind ≠ 5 && !w.s.takes e then w
  else
    let clear := go && !w.barrier && (look || e.kind == 5 || !w.s.rebuilding) && (if alone then w.held.isEmpty else !w.held.contains e.ent.set)
    let more := if look || alone || !clear then [] else w.s.stillUnread e.ent
    if clear && more.isEmpty then { w with s := w.s.applyAt b i e }
    else
      let s := more.foldl (fun s k => s.fetchReplica e.ent.tenant k) w.s
      if alone then { w with s := s, barrier := true } else { w with s := s, held := e.ent.set :: w.held }

/-- One batch of the walk. Nothing behind a batch that the order covers and that is not whole is applied before its repair (R195,
R226). -/
def Walk.batch (look : Bool) (go : Batch → Nat → BEntry → Bool) (w : Walk) (b : Batch) : Walk :=
  if !b.complete then { w with barrier := w.barrier || b.covered }
  else (b.entries.mapIdx (fun i e => (i, e))).foldl (fun w p => w.entry look (go b p.1 p.2) b p.1 p.2) w

/-- The order walked. -/
def State.walkOrder (s : State) (look : Bool) (go : Batch → Nat → BEntry → Bool) : State :=
  (s.span.batches.foldl (Walk.batch look go) { s := s, held := [], barrier := false }).s

/-- A close or SET_TIME of this member's own has committed in a batch that stands at or behind another: what lies before it is
applied with it. -/
def Span.closesAfter (x : Span) (b : Batch) : Bool :=
  x.batches.any (fun c => c.origin == x.me && b.first ≤ c.first && c.entries.any (fun e =>
    (e.kind == 4 || e.kind == 5) && !e.done && c.committed.getLsbD e.ent.set))

/-- An entry may be made visible: its COMMIT_ORDER has come (R206), or this member is its origin and it has committed (R205); changes
of membership and configuration take effect at their commit (R212, R216, R218, R221). -/
def Span.visible (x : Span) (b : Batch) (i : Nat) (e : BEntry) : Bool :=
  (b.covered && b.first + i < x.commitOrder) ||
    (b.committed.getLsbD e.ent.set && (b.origin == x.me || 6 ≤ e.kind || x.closesAfter b))

/-- Every entry applied that may be (R194, R205, R206). -/
def State.advance (s : State) : State := s.walkOrder false s.span.visible

/-- The state that the entries below an order index lead to, whether they are visible yet or not (R203, R223). It is looked at and
not taken. -/
def State.ahead (s : State) (index : Nat) : State := s.walkOrder true (fun b i _ => b.first + i < index)

/-- The digests as of the last entry of the previous rotation, of every set whose entries up to there are at hand (R223). -/
def State.takeMarks (s : State) : State :=
  let x := s.span
  if x.sets.all (fun y => y.mark.isSome || !x.belongs y.id) || x.batches.any (fun b => b.first < x.markAt && !b.complete) then s
  else
    let p := (s.ahead x.markAt).span
    { s with span := { x with sets := x.sets.map (fun y =>
      if y.mark.isNone && x.belongs y.id then { y with mark := (p.set y.id).map (·.digest) } else y) } }

/-! ### The journal of a batch (R203, R298) -/

/-- Values encrypted under a sequence number, with the state that has used the key for them (R375, R376). -/
def State.sealAll (s : State) (t : Nat) (writes : List (Bytes × Option Bytes)) (seq : Nat) : State × List Rec :=
  writes.foldl (fun acc w => match w.2 with
    | some v => (acc.1.encryptOnce t, acc.2 ++ [acc.1.sealRec t (acc.1.compressed w.1 v seq)])
    | none => acc) (s, [])

/-- The outcome that an entry has at its place, where this member can journal it: the effects with their number, or a refusal. -/
def State.outcomeOf (s : State) (e : Entry) : Option (Option (Effects × Nat)) :=
  if (s.span.fencedAt e.set) || !s.agrees e then none
  else if e.kind = .closeDay then some none
  else match s.decideEntry e with
    | .error (st, _, _) => if s.headerLost e st then none else some none
    | .ok fx =>
      if fx.writes.isEmpty then some none
      else if (s.keyShort e.tenant (fx.writes.filter (·.2.isSome)).length).isSome then none
      else some (some (fx, s.nextSeqOf e.set))

/-- The declared steps of a program entry of another member (R167). -/
def State.stepsHere (s : State) (e : Entry) : Nat :=
  if e.kind = .program && e.desc.isNone then
    ((s.tenant e.tenant).find e.key).elim 0 (fun r => if imageOk r.value then imageSteps r.value else 0)
  else e.steps

/-- An entry journalled with its outcome, values encrypted (R203, R298). `p` is the state at its place. -/
def State.noteEntry (s : State) (p : State) (b : Batch) (i : Nat) (e : BEntry) : State :=
  match p.outcomeOf e.ent with
  | none => s
  | some out =>
    let fx := out.elim { writes := [], result := [], legs := [] } (·.1)
    let seq := out.elim 0 (·.2)
    let (s, recs) := s.sealAll e.ent.tenant fx.writes seq
    let s := s.addRecord (s.recordOf e.ent fx seq) recs
    { s with span := s.span.modBatch b.first b.origin (fun b => { b with entries := b.entries.modify i (fun e => { e with
      noted := some seq, recs := recs, ent := { e.ent with steps := p.stepsHere e.ent } }) }) }

/-- The entries of a batch journalled in order, those of the sets that this member belongs to and that are not yet (R203). While the
rule table is rebuilt they wait (R360). -/
def State.noteBatch (s : State) (b : Batch) : State :=
  if s.rebuilding then s
  else ((b.entries.mapIdx (fun i e => (i, e))).foldl (fun (acc : State × State) q =>
    let e := q.2
    let s := if 1 ≤ e.kind && e.kind ≤ 4 && e.noted.isNone && acc.1.span.belongs e.ent.set then acc.1.noteEntry acc.2 b q.1 e else acc.1
    (s, if e.kind = 0 || (e.kind < 5 && !acc.2.takes e) then acc.2 else acc.2.applyAt b q.1 e)) (s, s.ahead b.first)).1.watchJournal

/-- The records of a batch's read sets read ahead, by their fingerprints (R169, R190). -/
def State.prefetch (s : State) (b : Batch) : State :=
  b.entries.foldl (fun s e =>
    if e.kind = 0 || 4 ≤ e.kind || !s.span.belongs e.ent.set || s.span.fencedAt e.ent.set then s
    else
      let keys := ((s.tenant e.ent.tenant).recs.filter (fun r => e.ent.readSet.contains (Config.fingerprint r.key))).map (·.key)
      (s.uncached e.ent.tenant keys).foldl (fun s k => s.fetchReplica e.ent.tenant k) s) s

/-! ### Slots and rotations (R191, R214, R218, R221) -/

/-- Sets of a configuration at a member: those it had go on; for a new one every member but the lowest present is away until
it has resynchronised, and this member is fenced for it likewise (5.6.1; assumption log 38). -/
def Span.setsUnder (x : Span) (record : Bytes) (versions : Nat → Nat) : List SetState :=
  ((List.range 16).filter (fun k => cfgSet record k != 0)).map (fun k =>
    match x.set k with
    | some y => { y with away := y.away.filter (fun m => bit (cfgSet record k) m) }
    | none =>
      let ms := membersOf (cfgSet record k)
      let src := (ms.filter x.present.contains).headD 16
      { id := k, nextSeq := versions k + 1, digest := List.replicate 48 0#8, applied := 0,
        fenced := bit (cfgSet record k) x.me && x.me != src, readOnly := true, degraded := false, skew := false,
        away := ms.filter (· != src), mark := none })

/-- The greatest version that a set's ranges hold here (R34). -/
def State.setVersions (s : State) (set : Nat) : Nat :=
  s.tenants.foldl (fun m t => t.recs.foldl (fun m r =>
    if (s.lookup r.key).elim false (fun u => u.set == set) then max m r.version else m) m) 0

/-- A member that is fenced for some set, as far as this one knows (R214). -/
def Span.fencedMember (x : Span) (m : Nat) : Bool :=
  x.sets.any (fun y => bit (cfgSet x.record y.id) m && (if m = x.me then y.fenced else y.away.contains m))

/-- The time master among present members (R214): the lowest that is unfenced and not OUTSIDE; where every one is fenced, the
lowest. -/
def Span.electMaster (x : Span) : Nat :=
  let here := (List.range 12).filter (fun m =>
    x.present.contains m && !x.lost m && !x.outsiders.contains m && !(m == x.me && x.state == .outside))
  ((here.find? (fun m => !x.fencedMember m)).orElse (fun _ => here.head?)).getD x.master

/-- The span's layout after the next rotation start (R191, R214, R216, R218, R221): configuration, present members and
master. -/
def Span.turned (x : Span) (versions : Nat → Nat) : Span :=
  let record := x.nextCfg.getD x.record
  let keep := (x.present.filter (fun m => !x.removes.contains m)) ++ x.joins.filter (fun m => !x.present.contains m)
  let y : Span := { x with cfg := x.cfg.map (fun _ => record), present := keep.filter (cfgRing record).contains, joins := [], removes := [] }
  let z : Span := { y with
    sets := if x.nextCfg.isSome then y.setsUnder record versions else y.sets
    nextCfg := none
    reconfig := x.reconfig && x.nextCfg.isNone }
  let gained : Span := { z with outsiders := z.outsiders.filter (fun m => z.present.contains m && !x.joins.contains m), sets := z.sets.map (fun (w : SetState) =>
    { w with away := w.away ++ x.joins.filter (fun m => m != x.me && bit (cfgSet record w.id) m && !w.away.contains m) }) }
  { gained with master := gained.electMaster }

/-- The member that holds the slot after a member's: within the rotation, or the first of the next. -/
def Span.nextHolder (x : Span) (after : Nat) : Nat × Bool :=
  match (x.slotOrder.dropWhile (· != after)).drop 1 with
  | m :: _ => (m, false)
  | [] => ((x.turned (fun _ => 0)).slotOrder.headD after, true)

/-- The member whose slot starts at a span tick (R191), from where the last rein stood. -/
def Span.holderAt (x : Span) (tick : Nat) : Option Nat :=
  let before := (x.slotOrder.takeWhile (· != x.holder)).length * x.slotLen
  let start := x.slotTick - before
  let rot := x.rotationTicks
  if tick < start then none
  else if tick - start < rot then x.slotOrder[(tick - start) / x.slotLen]?
  else
    let y := x.turned (fun _ => 0)
    y.slotOrder[(tick - start - rot) / y.slotLen]?

/-- The members that hold slots. -/
def membersIn (map : Nat) : List Nat := (List.range 12).filter (bit map)

/-! ### The end of a flash read -/

/-- A read for a span entry ends: the record is at hand, or lost, which fences its set at once (R225, R309); and the entries that
waited go on. -/
def State.replicaRead (s : State) (id t : Nat) (r : Rec) (o : ReadOutcome) (blk : BlockId)
    (others : List (Nat × Bytes × Nat)) : State :=
  let s : State := { s with ledger := { s.ledger with reads := s.ledger.reads.filter (fun x => x.1 != id) } }
  let s := ((s.dropFlows id).blockRead blk o).ladderCounted o
  (if (s.lostAlready t r).isSome then s else s.recordRead t r o others).advance.resumeFloors

/-- READ_COMPLETE (R308 to R310, R319, R326): of the read that a descriptor waits for, or of one for a span entry, which takes its
number from the same count (assumption log 105). -/
def execReadComplete (id : Nat) (outcome : ReadOutcome) (blk : BlockId) (others : List (Nat × Bytes × Nat)) (s : State) :
    Host.Outcome State Fault Refusal :=
  match s.ledger.reads.find? (fun x => x.1 == id) with
  | some (_, t, r) => .next (s.replicaRead id t r outcome blk others)
  | none => .next (s.readComplete id outcome blk others)

end Sys2Proof.Machine
end

