-- ==== Sys2Proof/Machine/Span.lean ====
section
/-! DEFINITION. The commands of the span ring (chapter 5): joining and leaving, slots and reins, batches, digests,
configuration, delays, repair, resynchronisation, wraps. -/
namespace Sys2Proof.Machine
open Sys2Proof

/-! ### In and out of a span -/

/-- The drive's own protocol level (R402). -/
def State.level (s : State) : Nat × Nat := s.update.active.level

/-- Protocol levels that may not work together (R222): another major level, or a minor spread above one. -/
def State.levelApart (s : State) (rein : Bytes) : Bool :=
  let l := s.level
  l.1 != byteAt rein 20 || 2 ≤ max (byteAt rein 22) l.2 - min (byteAt rein 21) l.2

/-- A drive in no span: the identity last joined, the staged record and the lanes stay. -/
def Span.departed (x : Span) : Span :=
  { Span.reset with
    identity := x.identity, staged := x.staged, cfgBad := x.cfgBad, laneUp := x.laneUp, laneDn := x.laneDn, out := x.out }

/-- The drive leaves its span: its replicas become local ranges, and its own next sequence number lies above every version in
them (R34, R218). -/
def State.leaveSpan (s : State) : State :=
  let top := s.tenants.foldl (fun m t => t.recs.foldl (fun m r => max m r.version) m) 0
  { s with span := s.span.departed }.raiseSeq 0 (top + 1)

/-- A request of the span answered, if it has a descriptor. -/
def State.answerSpan (s : State) (id : Option Nat) (st : Status) (param : Nat) : State :=
  match id with
  | some id => s.refuse id st param
  | none => s

/-- The member enters OUTSIDE (R212, R222): what it admitted and has not sent is refused; a member that was leaving is in no
span (assumption log 40). -/
def State.goOutside (s : State) : State :=
  let x := s.span
  let s : State := { s with span := { x with state := .outside, windowOpen := false, own := [], later := [], system := [] } }
  let s := (s.refuseAll x.unsent .outsideSpan 0)
  let s := (x.system.map (·.ent)).foldl (fun s e => s.replyEntry e .outsideSpan 0 [] []) s
  if x.state = .leaving then s.leaveSpan.answerSpan x.leave .done 0 else s.watchSets

/-- SPAN_JOIN (R141, R216, R221, R231, R232): step 1 of Table 5.7. A member of a span that is reconfiguring answers SPAN_RECONFIG
before it answers STATE_FORBIDS (assumption log 130). -/
def State.serveJoin (s : State) (d : Desc) : State :=
  let x := s.span
  let me := d.bitsOf 3 0
  if x.reconfig then s.refuse d.id .spanReconfig 0
  else if x.state ≠ .none || !(s.secure.lc == .owned || s.secure.lc == .locked) then s.refuse d.id .stateForbids 0
  else if d.value.length ≠ 96 then s.refuse d.id .length 0
  else if !cfgValid d.value || !(cfgRing d.value).contains me then s.refuse d.id .range 0
  else if byteAt d.value 80 ≠ s.level.1 then s.refuse d.id .levelMismatch 0
  else if x.identity ≠ some (cfgIdentity d.value) && 32 ≤ s.secure.rebindSpent then s.refuse d.id .countExhausted 0
  else
    let s := s.accept d.id .waiting
    { s with span := { x with
      state := .joining, me := me, cfg := some d.value,
      join := some { desc := some d.id, began := s.tick, probed := false, reqSent := false } } }

/-- SPAN_JOIN. -/
def execSpanJoin (id : Nat) (s : State) : Host.Outcome State Fault Refusal :=
  .next (s.serve id 0x90 (fun d s => s.serveJoin d))

/-- SPAN_JOIN_TIMEOUT (R216): no valid rein within 62,500 ticks of the first reply. -/
def execSpanJoinTimeout (s : State) : Host.Outcome State Fault Refusal :=
  match s.span.join with
  | some j =>
    if s.span.state = .joining && j.desc.isSome && !j.probed && j.began + 62500 ≤ s.tick then
      .next ({ s with span := s.span.departed }.answerSpan j.desc .spanReconfig 1)
    else .next s
  | none => .next s

/-- SPAN_LEAVE (R141, R218, R447): a member drains and orders a LEAVE entry; a drive that is OUTSIDE or rejoins leaves at
once. A drive that is LEAVING already is refused as no member is (DESIGN CHOICE, assumption log 131). -/
def State.serveLeave (s : State) (d : Desc) : State :=
  let x := s.span
  match x.state with
  | .member =>
    let s := (s.accept d.id .waiting).orderSystem (systemEntry 9 none 0 0 x.me [])
    { s with span := { s.span with state := .leaving, leave := some d.id } }
  | .outside => (s.accept d.id .waiting).leaveSpan.finish d.id 0
  | .joining => if x.rejoining then (s.accept d.id .waiting).leaveSpan.finish d.id 0 else s.refuse d.id .stateForbids 0
  | .leaving | .none => s.refuse d.id .stateForbids 0

/-- SPAN_LEAVE. -/
def execSpanLeave (id : Nat) (s : State) : Host.Outcome State Fault Refusal :=
  .next (s.serve id 0x91 (fun d s => s.serveLeave d))

/-- The code of a span state (Table 5.10). -/
def SpanState.code : SpanState → Nat
  | .none => 0
  | .joining => 1
  | .member => 2
  | .outside => 3
  | .leaving => 4

/-- Bitmap of the sets that a test picks. -/
def Span.setMap (x : Span) (p : SetState → Bool) : Nat := mapOf ((x.sets.filter p).map (·.id))

/-- The status record (Table 5.11). A tenant sees the maps of its own sets, and zero where a field is for management. -/
def State.spanRecord (s : State) (fn : Nat) : Bytes :=
  let x := s.span
  let mgmt := fn ≥ 62
  let seen (m : Nat) : Nat := if mgmt then m else mapOf ((membersOf m).filter (s.tenantSets fn).contains)
  let only (n : Nat) : Nat := if mgmt then n else 0
  [BitVec.ofNat 8 x.state.code, BitVec.ofNat 8 x.me, BitVec.ofNat 8 x.master,
    BitVec.ofNat 8 (flagAt x.wrapped 0 + flagAt x.reconfig 1)] ++ toBe 2 (mapOf x.present) ++
    toBe 2 (seen (x.setMap (·.fenced))) ++ toBe 2 (seen (x.setMap (·.readOnly))) ++
    toBe 2 (seen (x.setMap (·.degraded))) ++ toBe 4 (only (cfgEpoch x.record)) ++
    [BitVec.ofNat 8 (cfgS x.record), BitVec.ofNat 8 x.present.length, 0#8, 0#8] ++ toBe 8 (only x.rotation) ++
    toBe 4 (only x.loopDelay)

/-- SPAN_STATUS (R233). -/
def execSpanStatus (id : Nat) (s : State) : Host.Outcome State Fault Refusal :=
  .next (s.serve id 0x92 (fun d s => s.answer d.id .done 0 [] [] (s.spanRecord d.fn)))

/-- GO written to SPN_CFG_GO (R221, R231): a staged record of the same identity and an epoch one higher is ordered; any
other sets CFG_BAD. -/
def State.cfgGo (s : State) : State :=
  let x := s.span
  if x.state ≠ .member || x.reconfig then s
  else if cfgIdentity x.staged = cfgIdentity x.record && cfgEpoch x.staged = cfgEpoch x.record + 1 && cfgValid x.staged then
    { s with span := { x with reconfig := true } }.orderSystem (systemEntry 6 none 0 0 0 x.staged)
  else { s with span := { x with cfgBad := true } }

/-- SPN_CFG_GO. -/
def execSpnCfgGo (s : State) : Host.Outcome State Fault Refusal := .next s.cfgGo

/-! ### Delays (R188) -/

/-- A PROBE sent: the local clock in ns, hop count 0. -/
def State.sendProbe (s : State) : State := s.ringSend 8 0xFF (toBe 8 (s.tick * 8000) ++ [0#8])

/-- A PROBE one hop further. -/
def probeHop (f : RingFrame) : RingFrame := { f with body := f.body.take 8 ++ [BitVec.ofNat 8 (byteAt f.body 8 + 1)] ++ f.body.drop 9 }

/-- PROBE (R188): forwarded with its hop count raised, and echoed to its sender. -/
def execProbe (port : RingPort) (frame : Bytes) (s : State) : Host.Outcome State Fault Refusal :=
  .next (s.ringIn port frame 8 (fun f => some (probeHop f)) (fun f s =>
    s.ringSend 9 f.source (f.body.take 9 ++ List.replicate 7 0#8)))

/-- The ring is wrapped, here or elsewhere, by the last rein (Table 5.3). -/
def Span.ringWrapped (x : Span) : Bool := x.wrapped || x.rein.elim false (fun r => bit (byteAt r 23) 3)

/-- The hop count that a PROBE has at the farthest member, the upstream neighbour: the rest of the ring lies between, and in a ring
wrapped elsewhere the single loop of twice as many hops (R187, R188, R219). -/
def Span.lastHop (x : Span) : Nat :=
  if x.ringWrapped && !x.brokenUp then 2 * cfgN x.record - 4 else cfgN x.record - 2

/-- Measured delays taken (R188): the hop from the upstream neighbour, and the loop from the echo of the farthest member
(assumption log 41). -/
def State.tookEcho (s : State) (f : RingFrame) (now upstream : Nat) : State :=
  let x := s.span
  let last := byteAt f.body 8 = x.lastHop
  let loop_ := if last then now - u64 f.body 0 else x.loopDelay
  let s : State := { s with span := { x with upDelay := upstream, loopDelay := loop_, loopLong := 4000 < loop_ } }
  if last && 4000 < loop_ then s.raise 0x8102 0 0 loop_ else s

/-- PROBE_ECHO. -/
def execProbeEcho (port : RingPort) (frame : Bytes) (now upstream : Nat) (s : State) : Host.Outcome State Fault Refusal :=
  .next (s.ringIn port frame 9 some (fun f s => s.tookEcho f now upstream))

/-- PROBE_PERIOD (R188): once every 1,000 rotations while the ring is whole. -/
def execProbePeriod (s : State) : Host.Outcome State Fault Refusal :=
  let x := s.span
  if (x.state == .member || x.state == .leaving) && !x.wrapped && x.probeLast + 1000 ≤ x.rotation then
    .next { s with span := { x with probeLast := x.rotation } }.sendProbe
  else .next s

/-! ### Slots (R192, R198, R206) -/

/-- The span tick at which this member's slot of the present rotation starts (R191). -/
def Span.mySlot (x : Span) : Nat := x.rotStart + (x.slotOrder.takeWhile (· != x.me)).length * x.slotLen

/-- The start of this member's present or next slot: as its rein names it, else by the layout, which goes on from rotation to rotation
for a member that is OUTSIDE. -/
def State.slotNow (s : State) : Nat :=
  let x := s.span
  let rot := max 1 x.rotationTicks
  if x.reinHere then x.slotTick
  else if x.state = .outside then x.mySlot + ((s.spanTick - (x.mySlot : Int)).toNat / rot) * rot
  else x.mySlot

/-- SLOT_START (R192): at the start of its slot, once, the window opens where the rein is here. A drive that joined holds a slot now,
and SPAN_JOIN completes (R216). -/
def State.slotStarts (s : State) : State :=
  let x := s.span
  let at_ := s.slotNow
  if !x.present.contains x.me || x.state = .none || x.state = .joining || x.inSlot || x.slotAt = some at_ ||
      s.spanTick < (at_ : Int) || (at_ : Int) + x.slotLen ≤ s.spanTick then s
  else
    let lead := x.master == x.me
    let s : State := { s with span := { x with
      inSlot := true
      slotAt := some at_
      slotWall := s.ledger.wall
      masterWall := if lead then s.ledger.wall else x.masterWall
      masterTick := if lead then at_ else x.masterTick
      windowOpen := x.reinHere && !x.forfeiting && x.state != .outside
      join := none } }
    s.answerSpan (x.join.bind (·.desc)) .done 0

/-- SLOT_START. -/
def execSlotStart (s : State) : Host.Outcome State Fault Refusal := .next s.slotStarts

/-- The sets that a batch's ACK names here: of this member, not fenced, and journalled (R203, R224). -/
def Span.ackMap (x : Span) (b : Batch) : Nat :=
  mapOf (b.sets.filter (fun k => k != 0 && x.belongs k && !x.fencedAt k &&
    b.entries.all (fun e => e.kind == 0 || e.ent.set != k || e.noted.isSome)))

/-- An ACK sent, and this member's own noted (R203). -/
def State.sendAck (s : State) (b : Batch) : State :=
  let x := s.span
  let m := x.ackMap ((x.findBatch b.first b.origin).getD b)
  let x := x.modBatch b.first b.origin (fun b => { b with
    acks := (x.me, BitVec.ofNat 16 m) :: b.acks.filter (fun a => a.1 != x.me) })
  { s with span := x.noteCommits }.ringSend 4 0xFF
    (toBe 8 b.first ++ [BitVec.ofNat 8 b.origin, BitVec.ofNat 8 x.me] ++ toBe 2 m ++ toBe 4 0)

/-- The batch of this member's slot (R192, R194, R196, R198): BATCH frames, the TRAILER, its own journal and ACK. What does not fit,
because a forfeit or a lost batch has moved entries on (R211, R227), waits for the next. -/
def State.sendBatch (s : State) : State :=
  let s := s.dropOwn (fun e => e.kind != .closeDay && s.span.fencedAt e.set) .fenced 0
  let x := s.span
  let fit := x.fitting x.own
  let es := fit.map (fun e => e.sealed x.slotTick x.slotWall) ++ x.system.map BEntry.sealed
  let bodies := (packEntries es [] 0).mapIdx (fun i l => batchBody x.orderNext x.rotation i x.slotTick x.slotWall l)
  let trailer := trailerBody x.orderNext es.length bodies
  let s := (bodies.foldl (fun s b => s.ringSend 2 0xFF b) s).ringSend 3 0xFF trailer
  if es.isEmpty then s
  else
    let b : Batch := { Batch.empty x.orderNext x.rotation x.me with
      tick := x.slotTick, wall := x.slotWall, frames := bodies.mapIdx (fun i b => (i, b)), entries := es
      trailer := some trailer, complete := true }
    let s : State := { s with span := { s.span with
      own := x.own.drop fit.length, system := [], batches := s.span.batches ++ [b]
      orderNext := x.orderNext + es.length } }
    (s.noteBatch b).sendAck b

/-- Reports due sent in the slot, and kept as this member's own (R223, R224). -/
def State.sendReports (s : State) : State :=
  let due := s.span.toReport
  let s := due.foldl (fun s r => s.ringSend 5 0xFF ([BitVec.ofNat 8 r.kind, BitVec.ofNat 8 r.set, BitVec.ofNat 8 r.who, 0#8] ++
    toBe 8 r.index ++ padTo 48 r.digest)) s
  { s with span := { s.span with toReport := [], reports := s.span.reports ++ due } }

/-- The first present member of a set in ring order, which writes its rolling digest (R223). -/
def Span.digestWriter (x : Span) (set : Nat) : Option Nat :=
  (cfgRing x.record).find? (fun m => x.present.contains m && bit (cfgSet x.record set) m)

/-- The SET_DIGEST field that this member passes on: its own value where it is the set's writer and has it, else what it received. -/
def Span.digestField (x : Span) : Bytes :=
  ((List.range 15).map (fun i =>
    let old := (assoc x.setDigest (i + 1)).getD (List.replicate 8 0#8)
    let mine := ((x.set (i + 1)).bind (·.mark)).getD []
    if x.digestWriter (i + 1) = some x.me && !mine.isEmpty then padTo 8 mine else old)).flatten

/-- The rein that this member passes (Table 5.3): slot fields of the slot that it opens, the rest of the span in force. -/
def State.makeRein (s : State) (regen forfeit emptyPass : Bool) : Bytes :=
  let x := s.span
  let l := s.level
  let (holder, last) := x.nextHolder x.me
  let y := if last then x.turned (fun _ => 0) else x
  let lo := if x.spanLo = 0 && x.spanHi = 0 then l.2 else min x.spanLo l.2
  toBe 4 (cfgEpoch x.record) ++ cfgDigest x.record ++
    [BitVec.ofNat 8 l.1, BitVec.ofNat 8 lo, BitVec.ofNat 8 (max x.spanHi l.2),
      BitVec.ofNat 8 (flagAt regen 0 + flagAt forfeit 1 + flagAt emptyPass 2 + flagAt x.wrapped 3)] ++
    toBe 8 (x.slotTick + x.slotLen) ++ toBe 8 (if last then x.rotation + 1 else x.rotation) ++
    [BitVec.ofNat 8 holder, BitVec.ofNat 8 y.present.length, BitVec.ofNat 8 y.slotLen, BitVec.ofNat 8 y.master] ++
    toBe 8 x.masterWall ++ toBe 8 x.masterTick ++ toBe 8 x.orderNext ++ toBe 8 x.watermark ++
    toBe 2 (mapOf y.present) ++ toBe 2 (if forfeit then x.forfeits ||| BitVec.ofNat 16 (2 ^ x.me) else x.forfeits).toNat ++
    x.digestField

/-- The rein that a member which is OUTSIDE passes: what it received, with EMPTY_PASS, for the next slot (R222, 5.3.1). -/
def Span.passRein (x : Span) (regen forfeit : Bool) : Bytes :=
  let r := x.rein.getD []
  let ring := (cfgRing x.record).filter (bit (u16 r 76))
  let order := ring.dropWhile (· != byteAt r 43) ++ ring.takeWhile (· != byteAt r 43)
  let rest := (order.dropWhile (· != x.me)).drop 1
  let flags := flagAt regen 0 + flagAt forfeit 1 + 4 + flagAt x.ringWrapped 3
  r.take 23 ++ [BitVec.ofNat 8 flags] ++ toBe 8 (x.slotTick + byteAt r 42) ++
    toBe 8 (u64 r 32 + (if rest.isEmpty then 1 else 0)) ++ [BitVec.ofNat 8 (rest.headD (order.headD x.me))] ++ slice r 41 37 ++
    toBe 2 (if forfeit then x.forfeits ||| BitVec.ofNat 16 (2 ^ x.me) else x.forfeits).toNat ++ r.drop 80

/-- The slot is over: what was admitted for the next slot joins its batch. -/
def Span.slotOver (x : Span) : Span :=
  { x with
    inSlot := false, windowOpen := false, forfeiting := false, regen := false, own := x.own ++ x.later, later := [] }

/-- WINDOW_CLOSE (R192, R198, R206), in the last tick of the slot: the batch and its TRAILER where the window was open, reports, then
the rein. A member that is alone in the rotation passes the rein to itself. -/
def State.windowCloses (s : State) : State :=
  let x := s.span
  if !x.inSlot || x.state = .none || x.state = .joining || s.spanTick + 1 < ((x.slotAt.getD 0 + x.slotLen : Nat) : Int) then s
  else
    let out := x.state == .outside
    let s := if x.windowOpen && !x.forfeiting && !out then s.sendBatch else s
    let s := if out then s else s.sendReports.takeMarks
    if x.reinHere || x.regen then
      let body := if out then s.span.passRein x.regen x.forfeiting else s.makeRein x.regen x.forfeiting false
      let s := s.ringSend 1 0xFF body
      { s with span := { s.span.slotOver with
        rein := some body, slotTick := u64 body 24, reinHere := byteAt body 40 == x.me } }
    else { s with span := { s.span.slotOver with reinHere := false } }

/-- WINDOW_CLOSE. -/
def execWindowClose (s : State) : Host.Outcome State Fault Refusal := .next s.windowCloses

/-! ### The rein (R195, R206 to R215, R222, R223, R226, R229) -/

/-- A slot forfeited (R211, R212): counted; entries whose deadline falls before the end of the member's next slot complete
with FENCED 1; the third in a row takes the member OUTSIDE. `start` is the local tick of the slot. -/
def State.forfeitSlot (s : State) (start : Nat) : State :=
  let ending := start + s.span.rotationTicks + s.span.slotLen
  let late (e : Entry) : Bool := (e.desc.bind s.desc).elim false (fun d => d.deadline.elim false (· < ending))
  let s := (s.bump 0x00020100).dropOwn late .fenced 1
  let run := min 3 (s.span.forfeitRun + 1)
  let s : State := { s with span := { s.span with forfeiting := true, windowOpen := false, forfeitRun := run } }
  if run = 3 then s.goOutside else s

/-- The slew that an error above 200 ns asks for (R209, Table 5.6): proportional to it, at most 50 ppm. The factor is free. -/
def slewRate (e : Int) : Int :=
  let m : Int := min 5000 (Config.openValue 0 5 * e.natAbs : Nat)
  if e < 0 then -m else m

/-- The phase error at the arrival of the rein for a slot (R208), in ns: its arrival, less the measured delay from the upstream
neighbour, less the point 256 ns before the slot start on the local tick. `at_` is the arrival within the present tick. -/
def State.phaseError (s : State) (at_ : Nat) (start : Int) : Int :=
  ((s.tick * 8000 + at_ : Nat) : Int) - (s.span.upDelay : Int) - (start * 8000 - 256)

/-- The phase error acted on (R209 to R211, Table 5.6). -/
def State.actOnPhase (s : State) (e : Int) (start : Nat) : State :=
  let x := s.span
  let x := { x with
    phase := e
    slew := if e.natAbs < 50 then 0 else if e.natAbs ≤ 200 then x.slew else if e.natAbs ≤ 1000 then slewRate e else x.slew
    forfeitRun := if e.natAbs ≤ 1000 then 0 else x.forfeitRun }
  let s : State := { s with span := x }
  if 1000 < e.natAbs then s.forfeitSlot start else s

/-- Wall time follows the master (R215): an earlier own time jumps forward, a later one stops until the two are equal. -/
def State.followWall (s : State) (rein : Bytes) : State :=
  let w : Int := (u64 rein 44 : Int) + 8 * (s.spanTick - (u64 rein 52 : Int))
  let own : Int := s.ledger.wall
  if own ≤ w then { s with ledger := { s.ledger with wall := w.toNat, stall := 0, debt := 0, slewing := false } }
  else { s with ledger := { s.ledger with stall := (own - w).toNat } }

/-- The batches that a rein covers, from its sender and its ORDER_NEXT (R195): another origin's batch is covered where it ends
before the sender's own begins. A batch that this member has seen commit stays (5.4.1). -/
def Span.coveredBy (x : Span) (sender next : Nat) (b : Batch) : Bool :=
  let senders := x.batches.reverse.find? (fun c => c.origin == sender && !c.covered)
  let limit := senders.elim next (·.first)
  b.covered || b.committed != 0#16 || (if b.origin = sender then b.first < next else b.first < limit && b.first + b.size ≤ limit)

/-- The entries of a discarded batch of this member's own (R227): sent again in its next slot where their deadline allows,
else completed with FENCED 2. -/
def State.resend (s : State) (b : Batch) : State :=
  let ending := s.tick + s.ticksToSlot + s.span.slotLen
  let back := b.entries.filter (fun e => e.kind != 0)
  let lost (e : BEntry) : Bool := e.kind < 5 &&
    (e.ent.desc.bind s.desc).elim true (fun d => d.deadline.elim false (· < ending))
  let s : State := { s with span := { s.span with
    own := (back.filter (fun e => e.kind < 5 && !lost e)).map (·.ent) ++ s.span.own
    system := back.filter (fun e => 5 ≤ e.kind) ++ s.span.system } }
  s.refuseAll ((back.filter lost).map (·.ent)) .fenced 2

/-- A span reconfigures as long as a CONFIG entry is on its way or has committed (R221): one whose batch is discarded is not. -/
def Span.settleConfig (x : Span) : Span :=
  { x with reconfig := x.reconfig && (x.nextCfg.isSome || x.system.any (fun e => e.kind == 6) ||
      x.batches.any (fun b => b.entries.any (fun e => e.kind == 6))) }

/-- Batches covered or discarded by a rein (R195). A batch of which nothing arrived is noted, to be repaired. -/
def State.coverBatches (s : State) (sender next : Nat) : State :=
  let x := s.span
  let kept := (x.batches.filter (x.coveredBy sender next)).map (fun (b : Batch) => { b with covered := true })
  let gone := x.batches.filter (fun b => !x.coveredBy sender next b && 0 < b.size)
  let missing := x.orderNext < next && !kept.any (fun b => b.first == x.orderNext)
  let batches := if missing then kept ++ [{ Batch.empty x.orderNext x.rotation sender with covered := true }] else kept
  let s : State := { s with span := { x with batches := batches, orderNext := next } }
  let s := s.bumpBy 0x00020110 gone.length
  let s := (gone.filter (fun b => b.origin == x.me)).foldl State.resend s
  { s with span := s.span.settleConfig }

/-- What a passing rein asks of a member that holds batches (R226, R229): what has waited for the rule table is journalled (R360), ACKs
are resent for those not committed, and a BATCH_REQ goes out for those that it covers and that are not whole. -/
def State.tendBatches (s : State) : State :=
  if s.span.state = .outside then s else
  let again := s.span.batches.filter (fun b => b.complete && b.covered && b.sets.any (fun k => !b.committed.getLsbD k))
  let late := again.filter (fun b => b.entries.any (fun e => 1 ≤ e.kind && e.kind ≤ 4 && !e.done && e.noted.isNone))
  let s := again.foldl State.sendAck (late.foldl State.noteBatch s)
  let ask := s.span.batches.filter (fun b => b.covered && !b.complete && b.repair.isNone)
  ask.foldl (fun s b =>
    let s := s.ringSend 10 0xFF (toBe 8 b.first)
    { s with span := s.span.modBatch b.first b.origin (fun b => { b with repair := some s.span.rotation }) }) s

/-- What a passed rein says of its sender: OUTSIDE where EMPTY_PASS is set, else not (R204, R214, R222). -/
def Span.noteSender (x : Span) (m : Nat) (out : Bool) : Span :=
  { x with outsiders := if out then m :: x.outsiders.erase m else x.outsiders.erase m }

/-- The master orders the removal of a member, once (R212, R213). -/
def State.orderRemove (s : State) (m : Nat) : State :=
  let pending := s.span.removes.contains m || s.span.system.any (fun e => e.kind == 8 && e.ent.param.toNat == m) ||
    s.span.batches.any (fun b => b.entries.any (fun e => e.kind == 8 && !e.done && e.ent.param.toNat % 16 == m))
  if pending then s else s.orderSystem (systemEntry 8 none 0 0 m [])

/-- Bytes of a resynchronisation's outcome log (R228). -/
def Resync.logBytes (r : Resync) : Nat := r.log.foldl (fun n i => n + i.bytes.length + 16) 0

/-- A resynchronisation goes on while its source is present and unfenced and its log is within 1 GiB (R228). -/
def Span.resyncHolds (x : Span) (r : Resync) : Bool :=
  x.countsFor r.set r.source && x.fencedAt r.set && r.logBytes < 2 ^ 30

/-- A fenced set that may be resynchronised: no rule skew (R339), and its tenants can encrypt (R376). -/
def State.mayResync (s : State) (y : SetState) : Bool :=
  y.fenced && !y.skew && s.span.belongs y.id &&
    (List.range 32).all (fun t => !(s.tenantSets t).contains y.id || (s.keyShort t 1).isNone)

/-- Resynchronisation of the first fenced set asked of the lowest member that counts for it (R228 step 1). One that is taken up again
keeps what was streamed (Table 8.2). The source's count of records is a free number: no frame carries it (assumption log 91). -/
def State.startResync (s : State) : State :=
  let x := s.span
  let going := x.resync.elim false x.resyncHolds
  if going then s
  else
    let s : State := { s with free := s.free + 1, span := { x with resync := none } }
    match x.sets.find? (fun y => s.mayResync y && ((x.counting y.id).filter (· != x.me)).length > 0) with
    | none => s
    | some y =>
      let source := ((x.counting y.id).filter (· != x.me)).headD 0
      let s := s.ringSend 12 source ([BitVec.ofNat 8 y.id] ++ List.replicate 7 0#8 ++ toBe 8 y.applied)
      { s with span := { s.span with
        resync := some { set := y.id, source := source, total := Config.openValue s.free 11
                         streamed := (x.resync.filter (fun r => r.set == y.id)).elim [] (·.streamed), log := [] } } }

/-- Own digests compared with those in the rein, once a rotation (R223): after the set's writer has passed it, and where this
member has applied that far. -/
def State.compareDigest (s : State) (sender : Nat) (y : SetState) : State :=
  let x := s.span
  let pos (m : Nat) : Nat := (x.slotOrder.takeWhile (· != m)).length
  match x.digestWriter y.id, y.mark with
  | some w, some mine =>
    if w = x.me || !x.belongs y.id || mine.isEmpty || pos sender < pos w then s
    else
      let ref := (assoc x.setDigest y.id).getD (List.replicate 8 0#8)
      let s : State := { s with span := x.modSet y.id (fun y => { y with mark := some [] }) }
      if ref = mine.take 8 then s
      else
        let r : Report := { rot := x.rotation, kind := 1, set := y.id, who := x.me, index := x.markAt, digest := padTo 48 (mine.take 8) }
        { s with span := { s.span with toReport := s.span.toReport ++ [r] } }.bump 0x00020128
  | _, _ => s

/-- The fields of a rein that a member keeps. -/
def Span.keepRein (x : Span) (r : Bytes) : Span :=
  { x with
    rein := some r
    slotTick := u64 r 24
    spanLo := byteAt r 21
    spanHi := byteAt r 22
    commitOrder := u64 r 68
    forfeits := BitVec.ofNat 16 (u16 r 78)
    masterWall := if x.master = x.me then x.masterWall else u64 r 44
    masterTick := if x.master = x.me then x.masterTick else u64 r 52
    setDigest := (List.range 15).map (fun i => (i + 1, slice r (80 + 8 * i) 8)) }

/-- The rein disagrees with this member's record (R222), or names another holder than the layout does (5.3.1). -/
def Span.disagrees (x : Span) (r : Bytes) : Bool :=
  u32 r 0 != cfgEpoch x.record || slice r 4 16 != cfgDigest x.record ||
    (x.rein.isSome && x.holderAt (u64 r 24) != some (byteAt r 40))

/-- The rein passes this member the slot: its window opens where the slot has begun (R192). -/
def Span.takeSlot (x : Span) (r : Bytes) : Span :=
  if byteAt r 40 = x.me then
    { x with
      reinHere := true
      windowOpen := x.windowOpen || (x.inSlot && !x.forfeiting && x.state != .outside) }
  else x

/-- A rein at a present member; `at_` is its arrival within the present tick, in ns. -/
def State.reinMember (s : State) (f : RingFrame) (at_ : Nat) : State :=
  let r := f.body
  let wrapped := s.span.ringWrapped
  if s.span.disagrees r then
    let s : State := { s with span := (s.span.keepRein r).takeSlot r }
    (s.raise 0x8104 0 0 (u32 r 0)).goOutside
  else
    let s := s.coverBatches f.source (u64 r 60)
    let s : State := { s with span := s.span.keepRein r }
    let mine := byteAt r 40 = s.span.me
    let start := (u64 r 24 : Int) - s.span.offset
    let s := if mine && s.span.me != s.span.master && !s.span.regen then s.actOnPhase (s.phaseError at_ start) start.toNat else s
    let s := if s.span.me = s.span.master then s else s.followWall r
    let s := if s.span.ringWrapped == wrapped then s else s.sendProbe
    let s := s.advance.tendBatches
    let out := bit (byteAt r 23) 2
    let s : State := { s with span := s.span.noteSender f.source out }
    let s := if out && s.span.me = s.span.master then s.orderRemove f.source else s
    let s := s.takeMarks
    let s := s.span.sets.foldl (fun s y => s.compareDigest f.source y) s
    let s : State := { s with span := s.span.takeSlot r }
    s.startResync.watchSets.resumeFloors

/-- The drive announces itself (R216 step 3, R217). -/
def State.sendJoinReq (s : State) : State :=
  let x := s.span
  let l := s.level
  s.ringSend 6 0xFF (toBe 4 (cfgEpoch x.record) ++ cfgDigest x.record ++
    [BitVec.ofNat 8 x.me, BitVec.ofNat 8 l.1, BitVec.ofNat 8 l.2, 0#8] ++ toBe 8 s.tick)

/-- The drive takes its slot (R193, R216 steps 5 and 6, R232): its offset maps its tick count to the rein's, it is fenced for each
of its sets, and the span's identity is the one that it last joined. -/
def State.becomeMember (s : State) (r : Bytes) : State :=
  let x := s.span
  let rec_ := x.record
  let sets := ((List.range 16).filter (fun k => cfgSet rec_ k != 0)).map (fun k =>
    ({ id := k, nextSeq := max ((x.set k).elim 0 (·.nextSeq)) (s.setVersions k + 1),
       digest := (x.set k).elim (List.replicate 48 0#8) (·.digest), applied := (x.set k).elim 0 (·.applied),
       fenced := bit (cfgSet rec_ k) x.me, readOnly := false, degraded := false, skew := false, away := [],
       mark := none } : SetState))
  let y : Span := { Span.reset with
    state := .member, me := x.me, cfg := x.cfg, identity := some (cfgIdentity rec_), staged := x.staged, cfgBad := x.cfgBad
    wrapped := x.wrapped, brokenDn := x.brokenDn, brokenUp := x.brokenUp, loopLong := x.loopLong
    present := membersIn (u16 r 76), master := byteAt r 43, rotation := u64 r 32, orderNext := u64 r 60
    offset := (u64 r 24 : Int) - ((s.tick : Int) + 1), loopDelay := x.loopDelay, upDelay := x.upDelay
    sets := sets, markAt := u64 r 60, join := x.join, laneUp := x.laneUp, laneDn := x.laneDn, probeLast := u64 r 32
    rxUp := x.rxUp, rxDn := x.rxDn, tx := x.tx, sentP := x.sentP, sentS := x.sentS, out := x.out }
  let z := { y with rotStart := u64 r 24 - (y.slotOrder.takeWhile (· != byteAt r 40)).length * y.slotLen }
  let s : State := { s with span := (z.keepRein r).takeSlot r }
  s.startResync.watchSets

/-- The drive's record or level keeps it out (R217, R222): OUTSIDE, an event, and SPAN_JOIN refused. A drive that was OUTSIDE
already reports it once. -/
def State.keptOut (s : State) (code a b c : Nat) (st : Status) (param : Nat) : State :=
  let x := s.span
  let was := x.state == .outside
  let s : State := { s with span := { x with state := .outside, join := none } }
  let s := s.answerSpan (x.join.bind (·.desc)) st param
  if was then s else s.raise code a b c

/-- A rein at a drive that is JOINING or OUTSIDE (R216 steps 2 and 3, R217, R222, R232). -/
def State.reinJoining (s : State) (r : Bytes) : State :=
  let x := s.span
  let s : State := { s with span := { (x.keepRein r) with master := byteAt r 43 } }
  let here := bit (u16 r 76) x.me
  if u32 r 0 ≠ cfgEpoch x.record && cfgEpoch x.record < u32 r 0 then
    { s with span := s.span.takeSlot r }.sendJoinReq
  else if u32 r 0 ≠ cfgEpoch x.record || slice r 4 16 ≠ cfgDigest x.record then
    { s with span := s.span.takeSlot r }.keptOut 0x8104 0 0 (u32 r 0) .spanReconfig 2
  else if s.levelApart r then
    match x.join.bind (·.desc) with
    | some id => { s with span := s.span.departed }.refuse id .levelMismatch 0
    | none => { s with span := s.span.takeSlot r }.keptOut 0x8105 s.level.1 s.level.2 0 .levelMismatch 0
  else match x.state, x.join with
    | .joining, some j =>
      if j.reqSent then (if here then s.becomeMember r else s)
      else if !j.probed then { s with span := { s.span with join := some { j with probed := true } } }.sendProbe
      else
        let fresh := j.desc.isSome && x.identity != some (cfgIdentity x.record)
        let s : State := { s with
          secure := { s.secure with rebindSpent := if fresh then min 32 (s.secure.rebindSpent + 1) else s.secure.rebindSpent }
          span := { s.span with join := some { j with reqSent := true } } }
        s.sendJoinReq
    | _, _ =>
      if here then { s with span := s.span.takeSlot r }
      else
        { s with span := { s.span with
          state := .joining, join := some { desc := none, began := s.tick, probed := false, reqSent := false } } }

/-- REIN (R208 to R215); `arrival` is the time within the tick at which its last byte arrives, in ns. -/
def execRein (port : RingPort) (frame : Bytes) (arrival : Nat) (s : State) : Host.Outcome State Fault Refusal :=
  .next (s.ringIn port frame 1 some (fun f s =>
    if s.span.state = .member || s.span.state = .leaving then s.reinMember f arrival else s.reinJoining f.body))

/-- The member of the slot before a member's. -/
def Span.predecessor (x : Span) (m : Nat) : Nat :=
  ((x.slotOrder.takeWhile (· != m)).getLast?).getD (x.slotOrder.getLastD m)

/-- The ring may have split, with this part holding no majority of the present members (R220; assumption log 42): two members silent,
or both of this member's own lane pairs broken. -/
def Span.splitOff (x : Span) : Bool :=
  (2 ≤ (x.present.filter (fun m => (assoc x.silent m).isSome)).length || (x.brokenUp && x.brokenDn)) &&
    2 * (x.present.filter (fun m => (assoc x.silent m).isNone)).length ≤ x.present.length

/-- REIN_REGENERATE (R199, R213, R220): behind a silent predecessor the member holds its own slot; otherwise it forfeits and
regenerates at the close, covering its predecessor's batch only with a valid TRAILER. A member that is OUTSIDE and still holds its
slot regenerates the rein as well and passes it empty. -/
def State.regenerate (s : State) : State :=
  let x := s.span
  if !(x.state == .member || x.state == .leaving || x.state == .outside) || !x.inSlot || x.reinHere || x.regen || x.rein.isNone then s
  else
    let start := x.slotAt.getD 0
    let prev := x.predecessor x.me
    let silent := (assoc x.silent prev).isSome
    let body := (x.rein.getD []).take 24 ++ toBe 8 start ++ slice (x.rein.getD []) 32 8 ++ [BitVec.ofNat 8 x.me] ++
      (x.rein.getD []).drop 41
    if x.state = .outside then
      { s with span := { x with rein := some body, slotTick := start, regen := true } }.bump 0x00020108
    else if x.splitOff then s.forfeitSlot s.tick
    else if silent then
      { s with span := { x with rein := some body, slotTick := start, regen := true, windowOpen := true } }.bump 0x00020108
    else
      let full := x.batches.find? (fun b => b.origin == prev && !b.covered && b.complete && b.first == x.orderNext)
      let y : Span := match full with
        | some b =>
          { (x.modBatch b.first b.origin (fun (b : Batch) => { b with covered := true })) with orderNext := b.first + b.size }
        | none => x
      ({ s with span := { y with rein := some body, slotTick := start, regen := true } }.bump 0x00020108).forfeitSlot s.tick

/-- REIN_REGENERATE. -/
def execReinRegenerate (s : State) : Host.Outcome State Fault Refusal := .next s.regenerate

/-- SILENT_MEMBER (R213): counted; after three of its slots the master, or the master to be, orders its removal. -/
def State.silentSlot (s : State) (m : Nat) : State :=
  let x := s.span
  if !(x.state == .member || x.state == .leaving) || !x.present.contains m || m = x.me then s
  else
    let n := min 3 ((assoc x.silent m).getD 0 + 1)
    let s : State := { s with span := { x with silent := insertSorted m n x.silent } }
    let s := s.watchSets
    let lead := s.span.me = s.span.master || (m = s.span.master && s.span.electMaster = s.span.me)
    if n = 3 && lead then s.orderRemove m else s

/-- SILENT_MEMBER. -/
def execSilentMember (member : Nat) (s : State) : Host.Outcome State Fault Refusal := .next (s.silentSlot member)

/-! ### Batches (R203 to R206, R226) -/

/-- A present member that holds batches. -/
def Span.inOrder (x : Span) : Bool := x.state == .member || x.state == .leaving

/-- BATCH (R190, R194, R203): a frame of a batch journalled as it streams. -/
def State.batchFrame (s : State) (f : RingFrame) : State :=
  if !s.span.inOrder then s
  else
    let first := u64 f.body 0
    let x := s.span.openBatch first (u64 f.body 8) f.source
    { s with span := x.modBatch first f.source (fun b => if b.complete then b else b.addFrame (u16 f.body 16) f.body) }

/-- BATCH. -/
def execBatch (port : RingPort) (frame : Bytes) (s : State) : Host.Outcome State Fault Refusal :=
  .next (s.ringIn port frame 2 some (fun f s => s.batchFrame f))

/-- A batch that has become whole: its configuration entry is heeded, its entries journalled, the ACK sent, and its read sets read
ahead (R169, R203, R221). -/
def State.batchWhole (s : State) (first origin : Nat) : State :=
  match s.span.findBatch first origin with
  | some b =>
    if b.complete && !b.entries.isEmpty then
      (({ s with span := b.entries.foldl Span.heedConfig s.span }.noteBatch b).sendAck b).prefetch b
    else s
  | none => s

/-- TRAILER (R203, R226): a batch whose hash matches is acknowledged; any other is repaired once the rein has passed. -/
def State.trailerFrame (s : State) (f : RingFrame) : State :=
  let first := u64 f.body 0
  if !s.span.inOrder then s
  else
    let rot := ((s.span.findBatch first f.source).filter (fun b => !b.covered)).elim s.span.rotation (·.rotation)
    let x := s.span.openBatch first rot f.source
    let was := (x.findBatch first f.source).elim false (·.complete)
    let y := x.modBatch first f.source (fun b => if b.complete then b else { b with trailer := some f.body }.assemble)
    if was then s else { s with span := y }.batchWhole first f.source

/-- TRAILER. -/
def execTrailer (port : RingPort) (frame : Bytes) (s : State) : Host.Outcome State Fault Refusal :=
  .next (s.ringIn port frame 3 some (fun f s => s.trailerFrame f))

/-- ACK (R204): noted for its batch. A member that names a set counts for it again. -/
def State.ackFrame (s : State) (f : RingFrame) : State :=
  if !s.span.inOrder then s
  else
    let m := byteAt f.body 9
    let map_ := u16 f.body 10
    let x := s.span.modBatch (u64 f.body 0) (byteAt f.body 8) (fun b => { b with
      acks := (m, BitVec.ofNat 16 map_) :: b.acks.filter (fun a => a.1 != m) })
    let y : Span := { x with sets := x.sets.map (fun (z : SetState) =>
      if bit map_ z.id then { z with away := z.away.filter (· != m) } else z) }
    { s with span := y }.watchSets

/-- ACK. -/
def execAck (port : RingPort) (frame : Bytes) (s : State) : Host.Outcome State Fault Refusal :=
  .next (s.ringIn port frame 4 some (fun f s => s.ackFrame f))

/-- BATCH_COMMIT (R204, R205): where a batch has committed for a set, its origin makes the entries visible and completes
them. System entries take effect at every member (R216 to R221). -/
def State.batchCommits (s : State) (first set : Nat) : State :=
  if s.span.batches.any (fun b =>
      b.first == first && b.committed.getLsbD set && (set == 0 || b.origin == s.span.me)) then s.advance.resumeFloors
  else s

/-- BATCH_COMMIT. -/
def execBatchCommit (orderFirst set : Nat) (s : State) : Host.Outcome State Fault Refusal :=
  .next (s.batchCommits orderFirst set)

/-- A held batch that can answer a request for an order index (R226). -/
def Span.heldBatch (x : Span) (first : Nat) : Option Batch :=
  if x.inOrder then x.batches.find? (fun b => b.first == first && b.complete && !b.entries.isEmpty) else none

/-- Copies of a batch's frames sent to a member; index 0xFFFF is the TRAILER (assumption log 43). -/
def State.sendCopies (s : State) (b : Batch) (to_ : Nat) : State :=
  let copy (i : Nat) (body : Bytes) : Bytes := toBe 2 i ++ [BitVec.ofNat 8 b.origin] ++ body
  let s := b.frames.foldl (fun s p => s.ringSend 11 to_ (copy p.1 p.2)) s
  s.ringSend 11 to_ (copy 0xFFFF (b.trailer.getD []))

/-- BATCH_REQ (R226): answered by the first member that it concerns and that holds the batch, else passed on. -/
def execBatchReq (port : RingPort) (frame : Bytes) (s : State) : Host.Outcome State Fault Refusal :=
  .next (s.ringIn port frame 10
    (fun f => if (s.span.heldBatch (u64 f.body 0)).isSome && s.span.concerns (port == .up) f then none else some f)
    (fun f s => match s.span.heldBatch (u64 f.body 0) with
      | some b => s.sendCopies b f.source
      | none => s))

/-- A copy put in place of a frame of a batch (R226): of the frames held, one may be what fails the TRAILER. -/
def Batch.replaceFrame (b : Batch) (index : Nat) (body : Bytes) : Batch :=
  { b with frames := (insertSorted index body (eraseKey index b.frames)).filter (fun p =>
      b.trailer.elim true (fun t => p.1 < u16 t 12)) }

/-- BATCH_RESEND (R226): a copy repairs a batch that the order covers. -/
def State.copyFrame (s : State) (f : RingFrame) : State :=
  let index := u16 f.body 0
  let origin := byteAt f.body 2
  let body := f.body.drop 3
  let first := u64 body 0
  match s.span.batches.find? (fun b => b.first == first && b.covered && !b.complete) with
  | none => s
  | some old =>
    let b := { old with origin := origin }
    let b := if index = 0xFFFF then { b with trailer := some body } else b.replaceFrame index body
    let b := b.assemble
    let s : State := { s with span := { s.span with
      batches := s.span.batches.map (fun c => if c = old then (if b.complete then { b with repair := none } else b) else c) } }
    if b.complete then ((s.bump 0x00020118).batchWhole first origin).advance else s

/-- BATCH_RESEND. -/
def execBatchResend (port : RingPort) (frame : Bytes) (s : State) : Host.Outcome State Fault Refusal :=
  .next (s.ringIn port frame 11 some (fun f s => if s.span.inOrder then s.copyFrame f else s))

/-- The sets that a batch which is not whole is known to touch; all of this member's where nothing of it arrived. -/
def Span.setsOfPart (x : Span) (b : Batch) : List Nat :=
  let es := b.bodies.flatMap (fun f => parseEntries (u16 f 18) (f.drop 36))
  let known := (es.map (fun e => e.ent.set)).eraseDups
  let mine := (x.sets.map (·.id)).filter x.belongs
  if known.isEmpty || es.length < b.size then mine else mine.filter known.contains

/-- BATCH_REPAIR_TIMEOUT (R226): not repaired within 2 rotations, so every set that the batch touches is fenced. -/
def State.repairFails (s : State) (first : Nat) : State :=
  match s.span.batches.find? (fun b =>
    b.first == first && b.covered && !b.complete && b.repair.elim false (fun r => r + 2 ≤ s.span.rotation)) with
  | none => s
  | some b =>
    let sets := s.span.setsOfPart b
    let s : State := { s with span := { s.span with batches := s.span.batches.erase b } }
    (sets.foldl State.fenceSet s).watchSets

/-- BATCH_REPAIR_TIMEOUT. -/
def execBatchRepairTimeout (orderFirst : Nat) (s : State) : Host.Outcome State Fault Refusal :=
  .next (s.repairFails orderFirst)

/-! ### Digests (R223, R224) -/

/-- DIGEST_REPORT: kept until the decision. -/
def execDigestReport (port : RingPort) (frame : Bytes) (s : State) : Host.Outcome State Fault Refusal :=
  .next (s.ringIn port frame 5 some (fun f s =>
    let r : Report :=
      { rot := s.span.rotation, kind := byteAt f.body 0, set := byteAt f.body 1, who := byteAt f.body 2, index := u64 f.body 4,
        digest := slice f.body 12 48 }
    { s with span := { s.span with reports := s.span.reports ++ [r] } }))

/-- The values that members hold for a reported digest: those that reported, and, for a rolling digest, the reference for
every other member that counts (R223). -/
def Span.digestValues (x : Span) (r : Report) : List (Nat × Bytes) :=
  let said := (x.reports.filter (fun q => q.kind == r.kind && q.set == r.set && q.index == r.index)).map
    (fun q => (q.who, q.digest))
  let ref := padTo 48 ((assoc x.setDigest r.set).getD [])
  if r.kind = 1 then
    said ++ ((x.counting r.set).filter (fun m => !said.any (fun p => p.1 == m))).map (fun m => (m, ref))
  else said

/-- One reported digest decided (R224): with a majority value the members that hold another are fenced; with none the set becomes
read-only. -/
def State.decideDigest (s : State) (r : Report) : State :=
  let x := s.span
  let vs := x.digestValues r
  let holders (d : Bytes) : Nat := (vs.filter (fun p => p.2 == d)).length
  match vs.find? (fun p => x.majority r.set ≤ holders p.2) with
  | some (_, d) =>
    let bad := (vs.filter (fun p => p.2 != d)).map (·.1)
    let s : State := { s with span := x.modSet r.set (fun y => { y with away := y.away ++ bad.filter (fun m => m != x.me && !y.away.contains m) }) }
    if bad.contains x.me then s.fenceSet r.set else s
  | none =>
    let s : State := { s with span := x.modSet r.set (fun y => { y with away := membersOf (cfgSet x.record r.set) }) }
    s.raise 0x8106 r.set 0 0

/-- Two reports are of one digest. -/
def Report.sameAs (q r : Report) : Bool := q.kind == r.kind && q.set == r.set && q.index == r.index

/-- DIGEST_DECISION (R224): the digests whose first report was seen a rotation ago are decided. -/
def State.digestDecides (s : State) : State :=
  let x := s.span
  let firsts := x.reports.foldl (fun acc r => if acc.any (fun (q : Report) => q.sameAs r) then acc else acc ++ [r]) ([] : List Report)
  let due := firsts.filter (fun r => r.rot + 1 ≤ x.rotation)
  if !x.inOrder then s
  else
    let s := due.foldl State.decideDigest s
    { s with span := { s.span with reports := s.span.reports.filter (fun r => !due.any (·.sameAs r)) } }.watchSets

/-- DIGEST_DECISION. -/
def execDigestDecision (s : State) : Host.Outcome State Fault Refusal := .next s.digestDecides

/-! ### Rotations (R191, R212 to R214, R218, R221, R223) -/

/-- The start of a rotation at a member that goes on. -/
def State.rotate (s : State) (y : Span) : State :=
  let left := s.span.present.any (fun m => !y.present.contains m)
  let y : Span := { y with
    rotation := s.span.rotation + 1
    rotStart := s.span.rotStart + s.span.rotationTicks
    forfeits := 0#16
    markAt := s.span.orderNext
    spanLo := if left && y.master == y.me then 0 else y.spanLo
    spanHi := if left && y.master == y.me then 0 else y.spanHi
    batches := y.batches.filter (fun b => s.span.rotation < b.rotation + 2 || !b.complete ||
      b.sets.any (fun k => !b.doneFor k && (k == 0 || y.belongs k)))
    sets := y.sets.map (fun (w : SetState) => { w with mark := none }) }
  { s with span := y.markSets }.watchSets

/-- A drive whose SPAN_JOIN stands and that has seen no rein opens the span's first rotation (R193; assumption log 101): alone, time
master, with offset 0, and the rein its own. -/
def State.openSpan (s : State) : State :=
  let x := s.span
  let sets := ((List.range 16).filter (fun k => cfgSet x.record k != 0)).map (fun k =>
    ({ id := k, nextSeq := s.setVersions k + 1, digest := List.replicate 48 0#8, applied := 0, fenced := false,
       readOnly := false, degraded := false, skew := false, away := [], mark := none } : SetState))
  { s with span := { x with
    state := .member, identity := some (cfgIdentity x.record), present := [x.me], master := x.me, offset := 0, rotation := 0
    rotStart := s.tick, slotTick := s.tick, orderNext := 0, markAt := 0, reinHere := true, sets := sets } }.watchSets

/-- ROTATION_START, at the end of the rotation under way: the configuration, the members and the master that wait take effect. A
member removed by a configuration or by its own LEAVE is in no span, its replicas local (R218, 5.6.1); one removed otherwise is
OUTSIDE (R212). -/
def State.rotationStarts (s : State) : State :=
  let x := s.span
  if x.state = .joining && x.rein.isNone && x.join.elim false (·.desc.isSome) then s.openSpan
  else if !x.inOrder || s.spanTick < ((x.rotStart + x.rotationTicks : Nat) : Int) then s
  else
    let y := x.turned s.setVersions
    if y.present.contains x.me then s.rotate y
    else if x.state = .leaving then s.leaveSpan.answerSpan x.leave .done 0
    else if !(cfgRing y.record).contains x.me then s.leaveSpan.refuseAll x.unsent .outsideSpan 0
    else ({ s with span := { y with rotation := x.rotation + 1, rotStart := x.rotStart + x.rotationTicks } }).goOutside

/-- ROTATION_START. -/
def execRotationStart (s : State) : Host.Outcome State Fault Refusal := .next s.rotationStarts

/-- The present member before another in ring order: its upstream neighbour. -/
def Span.upstreamOf (x : Span) (m : Nat) : Option Nat :=
  let ring := cfgRing x.record
  let before := (ring.takeWhile (· != m)).filter x.present.contains
  if ring.contains m then before.getLast?.orElse (fun _ => (ring.filter (fun n => x.present.contains n && n != m)).getLast?)
  else none

/-- JOIN_REQ (R216 step 4, R217): the master orders the join of a drive whose record matches; the upstream neighbour of one whose
record is older sends it the record. -/
def State.joinFrame (s : State) (f : RingFrame) : State :=
  let x := s.span
  let m := byteAt f.body 20
  if !x.inOrder then s
  else if u32 f.body 0 = cfgEpoch x.record && slice f.body 4 16 = cfgDigest x.record then
    let pending := x.joins.contains m || x.system.any (fun e => e.kind == 7 && e.ent.param.toNat == m)
    if x.me = x.master && (cfgRing x.record).contains m && !pending then s.orderSystem (systemEntry 7 none 0 0 m []) else s
  else if u32 f.body 0 < cfgEpoch x.record && x.upstreamOf f.source = some x.me then s.ringSend 7 f.source x.record
  else s

/-- JOIN_REQ. -/
def execJoinReq (port : RingPort) (frame : Bytes) (s : State) : Host.Outcome State Fault Refusal :=
  .next (s.ringIn port frame 6 some (fun f s => s.joinFrame f))

/-- CONFIG_XFER (R217): a joining drive adopts the record of its own span identity; another identity keeps it out. -/
def State.configFrame (s : State) (f : RingFrame) : State :=
  let x := s.span
  if !(x.state == .joining || x.state == .outside) then s
  else if cfgIdentity f.body ≠ cfgIdentity x.record then s.keptOut 0x8104 0 0 (cfgEpoch f.body) .spanReconfig 2
  else if cfgEpoch x.record < cfgEpoch f.body && cfgValid f.body then { s with span := { x with cfg := some f.body } }
  else s

/-- CONFIG_XFER. -/
def execConfigXfer (port : RingPort) (frame : Bytes) (s : State) : Host.Outcome State Fault Refusal :=
  .next (s.ringIn port frame 7 some (fun f s => s.configFrame f))

/-! ### Resynchronisation (R228) -/

/-- The records of a set held here, with their tenants. -/
def State.recordsOf (s : State) (set : Nat) : List (Nat × Rec) :=
  s.tenants.mapIdx (fun t x => (x.recs.filter (fun r => s.keySet r.key == set)).map (fun r => (t, r))) |>.flatten

/-- A streamed record's frame body (assumption log 43). -/
def resyncRecord (set index tenant : Nat) (r : Rec) : Bytes :=
  [BitVec.ofNat 8 set, 1#8] ++ List.replicate 6 0#8 ++ toBe 8 index ++
    [BitVec.ofNat 8 tenant, BitVec.ofNat 8 r.key.length] ++ r.key ++ toBe 8 r.version ++ toBe 4 r.value.length ++ r.value

/-- RESYNC_REQ at its source (R228 steps 2 and 4): every record of the set, then the running digest and the next sequence number
(assumption log 44). What is not in the cache is read on the SPAN requester (R279). -/
def State.streamSet (s : State) (f : RingFrame) : State :=
  let set := byteAt f.body 0
  match s.span.set set with
  | some y =>
    if !s.span.inOrder || !s.span.belongs set || y.fenced then s
    else
      let s := (s.recordsOf set).foldl (fun s p =>
        let s := if p.2.cached then s else s.queueWork (Config.channelOf p.1 p.2.key p.2.version) 32 (p.2.frames.length + 28) none
        s.ringSend 13 f.source (resyncRecord set y.applied p.1 p.2)) s
      s.ringSend 13 f.source ([BitVec.ofNat 8 set, 2#8] ++ List.replicate 6 0#8 ++ toBe 8 y.applied ++ y.digest ++ toBe 8 y.nextSeq)
  | none => s

/-- RESYNC_REQ. -/
def execResyncReq (port : RingPort) (frame : Bytes) (s : State) : Host.Outcome State Fault Refusal :=
  .next (s.ringIn port frame 12 some (fun f s => s.streamSet f))

/-- A streamed record installed, unless an entry of a later order index has written its key since (R228 step 3). Its value is
stored under this member's own key. -/
def State.installRecord (s : State) (r : Resync) (b : Bytes) : State :=
  let t := byteAt b 16
  let kl := byteAt b 17
  let key := slice b 18 kl
  let value := slice b (30 + kl) (u32 b (26 + kl))
  let later := r.log.any (fun i => u64 b 8 ≤ i.index && i.keys.contains key)
  let version := u64 b (18 + kl)
  let s : State := { s with span := { s.span with resync := some { r with streamed := key :: r.streamed.erase key } } }
  if later then s
  else (s.sealUp t (s.compressed key value version)).raiseSeq r.set (version + 1)

/-- The logged entries under the source's sequence numbers: those that took one take the next in turn (R33, R228 step 4). -/
def renumbered (next : Nat) : List LogItem → List LogItem × Nat
  | [] => ([], next)
  | i :: rest =>
    if i.seq = 0 then
      let l := renumbered next rest
      (i :: l.1, l.2)
    else
      let l := renumbered (next + 1) rest
      ({ i with seq := next } :: l.1, l.2)

/-- A record under its entry's right number: version, and the last sequence of an account that the entry set (R146). -/
def State.renumberRec (s : State) (t : Nat) (key : Bytes) (old new : Nat) : State :=
  match (s.tenant t).find key with
  | some r =>
    if r.version ≠ old || old = new then s
    else
      let v := if isAccountValue r.value && u64 r.value 8 = old then r.value.take 8 ++ toBe 8 new ++ r.value.drop 16 else r.value
      s.sealUp t (s.compressed key v new)
  | none => s

/-- What the logged entries wrote, under their right numbers; an entry's bytes name its tenant (Table 5.4). -/
def State.renumberRecs (s : State) (log new : List LogItem) : State :=
  (log.zip new).foldl (fun s p => p.1.keys.foldl (fun s k => s.renumberRec (byteAt p.1.bytes 2) k p.1.seq p.2.seq) s) s

/-- The end of a stream (R228 steps 4 and 5): records that the source does not hold go, the digest and the sequence numbers are adopted
with the logged entries chained onto them, and the set is unfenced, which an ACK that names it tells the others (assumption log
44). -/
def State.endResync (s : State) (r : Resync) (b : Bytes) : State :=
  let x := s.span
  let at_ := u64 b 8
  let log := r.log.filter (fun i => at_ ≤ i.index)
  let (new, next) := renumbered (u64 b 64) log
  let chained (l : List LogItem) : Bytes := l.foldl (fun d i => chain d i.index i.seq i.status i.bytes) (slice b 16 48)
  let stale (k : Bytes) : Bool := !r.streamed.contains k && !log.any (fun i => i.keys.contains k)
  let gone := (s.recordsOf r.set).filter (fun p => stale p.2.key)
  let s := (gone.foldl (fun s p => s.modTenant p.1 (·.erase p.2.key)) s).renumberRecs log new
  let s : State := { s with span := { (x.modSet r.set (fun y => { y with
    digest := chained new, applied := max at_ y.applied, fenced := false, nextSeq := next
    mark := if at_ ≤ x.markAt then some (chained (new.filter (fun i => i.index < x.markAt))) else some [] })) with resync := none } }
  (s.ringSend 4 0xFF (toBe 8 s.span.orderNext ++ [BitVec.ofNat 8 s.span.me, BitVec.ofNat 8 s.span.me] ++
    toBe 2 (2 ^ r.set) ++ toBe 4 0)).watchSets

/-- RESYNC_DATA. -/
def execResyncData (port : RingPort) (frame : Bytes) (s : State) : Host.Outcome State Fault Refusal :=
  .next (s.ringIn port frame 13 some (fun f s =>
    match s.span.resync with
    | some r =>
      if byteAt f.body 0 ≠ r.set || f.source ≠ r.source then s
      else if byteAt f.body 1 = 1 then s.installRecord r f.body
      else if byteAt f.body 1 = 2 then s.endResync r f.body
      else s
    | none => s))

/-! ### Ring lanes (R219, R220) -/

/-- RING_LANE_LOSS (R219): the member beside the break wraps, reports it and measures its delays again. -/
def State.laneLost (s : State) (port : RingPort) : State :=
  let x := s.span
  let lane : RingLane := { lock := false, since := s.tick }
  let x : Span := match port with
    | .up => { x with laneUp := lane }
    | .dn => { x with laneDn := lane }
  let broken := match port with
    | .up => x.brokenUp
    | .dn => x.brokenDn
  if x.state = .none || broken then { s with span := x }
  else
    let x : Span := match port with
      | .up => { x with wrapped := true, brokenUp := true }
      | .dn => { x with wrapped := true, brokenDn := true }
    (({ s with span := x }.raise 0x8101 (if port == RingPort.up then 0 else 1) 0 0).bump 0x00020120).sendProbe

/-- RING_LANE_LOSS. -/
def execRingLaneLoss (port : RingPort) (s : State) : Host.Outcome State Fault Refusal := .next (s.laneLost port)

/-- A lane has held signal and block lock for 125,000 ticks (R220). -/
def RingLane.steady (l : RingLane) (tick : Nat) : Bool := l.lock && l.since + 125000 ≤ tick

/-- RING_UNWRAP (R220): after a second of lock, at the start of a rotation, with nothing ordered by the master in its last two
slots. -/
def State.unwrap (s : State) : State :=
  let x := s.span
  let ready := x.wrapped && (!x.brokenUp || x.laneUp.steady s.tick) && (!x.brokenDn || x.laneDn.steady s.tick)
  let quiet := x.batches.all (fun b => b.origin != x.master || b.rotation + 2 < x.rotation)
  let starts := !x.inOrder || s.spanTick = (x.rotStart : Int)
  if ready && quiet && starts then
    { s with span := { x with wrapped := false, brokenUp := false, brokenDn := false } }.sendProbe
  else s

/-- RING_UNWRAP. -/
def execRingUnwrap (s : State) : Host.Outcome State Fault Refusal := .next s.unwrap

/-- RING_LANE_LOCK (R185, R216 step 1, R220): signal and block lock regained, and the receiver equalised for them. -/
def execRingLaneLock (port : RingPort) (s : State) : Host.Outcome State Fault Refusal :=
  let lane : RingLane := { lock := true, since := s.tick }
  match port with
  | .up => .next (if s.span.laneUp.lock then s else { s with span := { s.span with laneUp := lane } }.trainLane 2)
  | .dn => .next (if s.span.laneDn.lock then s else { s with span := { s.span with laneDn := lane } }.trainLane 3)

end Sys2Proof.Machine
end

