-- ==== Sys2Proof/Machine/RegRead.lean ====
section
/-! DEFINITION. What each register reads as (R20 to R22, R467, Tables 4.7, 4.8, 5.10, 6.4, 6.5, 7.4 to 7.6, 8.9, 8.10, 9.8,
10.10, 10.11, 11.7 and 12.9). -/
namespace Sys2Proof.Machine
open Sys2Proof

/-! ### Shared forms -/

/-- A field of a word: a number in `w` bits from bit `lo`. -/
def field (v w lo : Nat) : Nat := v % 2 ^ w * 2 ^ lo

/-- A signed field. -/
def sfield (v : Int) (w lo : Nat) : Nat := field (ofSigned w v) w lo

/-- A number held at the greatest value of its field. -/
def capAt (v most : Nat) : Nat := min v most

/-- The progress of a memory's present pass in percent (MED_BURN, AWL_PSCAN). -/
def State.passPercent (s : State) (i : Nat) : Nat := capAt (s.media.walked.getD i 0 * 100 / s.passPieces i) 100

/-- The tenant whose page holds an address, and the offset in the page. -/
def pageOf (base size addr : Nat) : Option (Nat × Nat) :=
  if base ≤ addr && addr < base + 32 * size then some ((addr - base) / size, (addr - base) % size) else none

/-- The tenant page of an address in any block that has them (13.3.1). -/
def tenantPage (addr : Nat) : Option (Nat × Nat) :=
  (pageOf 0x00030000 0x400 addr).orElse (fun _ => (pageOf 0x00051000 0x40 addr).orElse (fun _ =>
    (pageOf 0x00080000 0x1000 addr).orElse (fun _ => pageOf 0x000C1000 0x40 addr)))

/-- A tenant page of an ABSENT tenant reads as zero and ignores writes (13.3.1). -/
def State.pageAbsent (s : State) (addr : Nat) : Bool :=
  (tenantPage addr).elim false (fun p => (s.tenant p.1).state == .absent)

/-! ### Counters (R22) -/

/-- Where counters lie: first _LO address and how many. -/
def counterRuns : List (Nat × Nat) :=
  [(0x00000100, 4), (0x00010100, 25), (0x00018100, 25), (0x00020100, 12), (0x00038100, 2), (0x00040200, 5),
   (0x00050100, 10), (0x00060100, 20), (0x00070100, 6), (0x000A0100, 6), (0x000B0200, 4), (0x000C0020, 4)] ++
  (List.range 32).map (fun t => (0x00030000 + 0x400 * t + 0x100, 6)) ++
  (List.range 32).map (fun t => (0x00080000 + 0x1000 * t + 0x400, 5))

/-- The _LO word of a counter, and whether an address is it (`true`) or its _HI word. -/
def counterAt (addr : Nat) : Option (Nat × Bool) :=
  match counterRuns.find? (fun r => r.1 ≤ addr && addr < r.1 + 8 * r.2) with
  | some _ => if addr % 8 = 0 then some (addr, true) else some (addr - 4, false)
  | none => none

/-- A counter's _LO word read on a path (R22): bits 31:0, the latch set, the count cleared, in one step. -/
def State.readCounter (s : State) (path : Path) (addr : Nat) : Nat × State :=
  let v := s.counter addr
  (v % 2 ^ 32, (s.setLatch path addr (v / 2 ^ 32)).clearCounter addr)

/-! ### Pairs (R467) -/

/-- The tenth of a period's exact counts that a window word shows (Table 4.8). -/
def Period.countAt (p : Period) (off : Nat) : Nat :=
  if off = 0x20 then p.requests else if off = 0x28 then p.bytesRead else if off = 0x30 then p.bytesWritten else p.busy

/-- The period that LCK_TMTR_SEL selects. -/
def Tenant.shownPeriod (t : Tenant) : Option Period := t.periodAt t.meterSel

/-- The key slot that an entry of a tenant's key page shows (R397). -/
def State.keyEntry (s : State) (t n : Nat) : Option KeySlot :=
  s.secure.tack.find? (fun k => k.fn == t && k.entry == n && !k.lost && n < (s.tenant t).profile.keyslots)

/-- Values stored under a generation. -/
def State.valuesUnder (s : State) (t : Nat) (k : KeySlot) : Nat :=
  if k.kind = .data then ((s.tenant t).recs.filter (fun r => r.gen == k.gen)).length else 0

/-- The entry of a key page and the offset in it. -/
def keyEntryAt (off : Nat) : Option (Nat × Nat) :=
  if 0x100 ≤ off && off < 0x300 then some ((off - 0x100) / 0x20, (off - 0x100) % 0x20) else none

/-- The value behind an _L word and the width of its _H word; `none` where the address is no _L word. -/
def State.pairAt (s : State) (addr : Nat) : Option (Nat × Nat) :=
  if addr = 0x00000018 then some (beNat s.ident.macA, 16)
  else if addr = 0x00000020 then some (beNat s.ident.macB, 16)
  else if addr = 0x00000044 then some (s.tick, 32)
  else if addr = 0x00060024 then
    some (if s.media.lifeSel = 2 then s.media.meanCycles else if s.media.lifeSel = 5 then s.media.spare
      else s.media.life.getD s.media.lifeSel 0, 32)
  else if addr = 0x00070014 then some ((s.secure.rows.getD s.secure.fuseSel 0#64).toNat, 32)
  else if addr = 0x000C0000 then some (s.ledger.wall, 31)
  else if addr = 0x000C0010 then some (s.lastClose, 31)
  else match pageOf 0x000C1000 0x40 addr with
    | some (t, off) =>
      if off = 0x08 then some ((s.tenant t).closeShown, 31)
      else if 0x20 ≤ off && off % 8 = 0 then some ((s.tenant t).shownPeriod.elim 0 (·.countAt off), 16)
      else none
    | none =>
      match pageOf 0x00030000 0x400 addr with
      | some (t, off) =>
        if off = 0x0C then some ((s.tenant t).profile.quota, 32)
        else if off = 0x14 then some ((s.tenant t).logical, 32)
        else none
      | none =>
        match (pageOf 0x00080000 0x1000 addr).bind (fun p => (keyEntryAt p.2).map (fun q => (p.1, q))) with
        | some (t, n, off) =>
          let k := s.keyEntry t n
          if off = 0x0C then some (k.elim 0 (fun k => if k.kind = .data then min k.nonce (2 ^ 48 - 1) else 0), 16)
          else if off = 0x14 then some (k.elim 0 (s.valuesUnder t), 16)
          else none
        | none => none

/-- An _L word read on a path (R467): bits 31:0, and the upper bits latched. -/
def State.readPair (s : State) (path : Path) (addr value width : Nat) : Nat × State :=
  (value % 2 ^ 32, s.setLatch path addr (value / 2 ^ 32 % 2 ^ width))

/-! ### The blocks -/

/-- GLB_ (Table 12.9). The level of TICK_IN is free, an external signal. -/
def State.readGlb (s : State) (off : Nat) : Nat :=
  match off with
  | 0x00 => 0x54200B1A
  | 0x04 => field s.ident.cap 16 0 + field s.diesPerChannel 8 16 + field s.ident.hwRev 8 24
  | 0x08 => leNat (slice s.ident.serial 0 4)
  | 0x0C => leNat (slice s.ident.serial 4 4)
  | 0x10 => leNat (slice s.ident.serial 8 4)
  | 0x14 => s.ident.instanceId % 2 ^ 32
  | 0x28 => manifestVersion s.update.active.manifest
  | 0x2C => field s.secure.lc.code 3 0 + flagAt (s.secure.intent.isSome || s.secure.lcRunning) 3 + field s.secure.epoch 2 4
  | 0x30 => field s.boot.phase 4 0
  | 0x34 => field s.boot.cause 4 0 + field s.boot.rtype 2 4
  | 0x40 => flagAt s.power.srcReq 0 + flagAt s.power.srcIn 1 + flagAt s.power.tickOk 2 + flagAt (s.tick < s.power.slewUntil) 3
  | 0x4C =>
    flagAt s.power.leverOpen 0 + flagAt s.power.resetN 1 + flagAt s.power.pwrDis 2 + field (Config.openValue s.free 3) 1 3 +
      flagAt (!s.actLow) 4 + flagAt (!s.faultLow) 5
  | 0x50 => flagAt s.power.thermal 0 + flagAt s.power.tripped 1
  | 0x54 => s.events.pend.toNat + 256 * s.events.en.toNat
  | 0x58 => flagAt s.smbus.addrErr 0 + flagAt s.smbus.pecErr 1
  | _ => 0

/-- CTRL of a host port: RAW_EN lives with the addresses (R247). -/
def PortState.ctrlWord (p : PortState) : Nat := (p.ctrl &&& 0xBF#8).toNat + flagAt p.addrs.rawEn 6

/-- HPA_ and HPB_ (Table 6.4). -/
def State.readPort (s : State) (port : Port) (off : Nat) : Nat :=
  let p := s.port port
  let partner := p.partner s.tick
  match off with
  | 0x00 => p.ctrlWord
  | 0x04 =>
    flagAt p.up 0 + field p.speed 2 1 + field (if p.up then p.an.elim 0 (·.fec) else 0) 2 3 +
      flagAt (p.lpiAllowed s.tick) 5 + flagAt p.txLpi 6 + flagAt p.rxLpi 7 + flagAt partner.isSome 8 +
      flagAt (p.up && p.fallback) 9
  | 0x08 => p.linkEvt.toNat
  | 0x0C => field p.addrs.tkxPort 16 0
  | 0x10 => p.addrs.ipv4.toNat
  | 0x14 => (p.addrs.ipv6.extractLsb' 96 32).toNat
  | 0x18 => (p.addrs.ipv6.extractLsb' 64 32).toNat
  | 0x1C => (p.addrs.ipv6.extractLsb' 32 32).toNat
  | 0x20 => (p.addrs.ipv6.extractLsb' 0 32).toNat
  | 0x24 => field p.txMtu 14 0
  | 0x28 => field p.lpiHold 16 0
  | 0x2C => if p.up then field p.rxTw 16 0 + field p.ownTx 16 16 else 0
  | 0x30 => partner.elim 0 (fun e => field e.rxTw 16 0 + field e.txTw 16 16)
  | 0x34 => field (p.undecided (s.tick * 8000)).length 5 0
  | 0x38 => capAt p.firstBytes 0xFFFF
  | _ => 0

/-- SPN_ (Table 5.10). -/
def State.readSpan (s : State) (off : Nat) : Nat :=
  let x := s.span
  match off with
  | 0x00 =>
    field x.state.code 3 0 + flagAt x.wrapped 4 + flagAt (x.inOrder && x.me == x.master) 5 + flagAt x.reconfig 6 +
      flagAt x.loopLong 7 + field x.me 4 8
  | 0x04 => cfgEpoch x.record
  | 0x08 => field (cfgS x.record) 4 0 + field x.present.length 4 4 + field (mapOf x.present) 12 16
  | 0x0C => sfield x.phase 16 0
  | 0x10 => sfield x.slew 16 0
  | 0x14 => field (capAt x.loopDelay 0xFFFF) 16 0 + field (capAt x.upDelay 0xFFFF) 16 16
  | 0x18 => field x.forfeitRun 2 0
  | 0x1C => x.setMap (·.fenced)
  | 0x20 => x.setMap (·.readOnly)
  | 0x24 => x.setMap (·.degraded)
  | 0x28 => x.resync.elim 0 (fun r => field r.set 4 0 + field (min 100 (r.streamed.length * 100 / max 1 r.total)) 8 8 + 2 ^ 31)
  | 0x2C => field (32 - s.secure.rebindSpent) 6 0
  | 0x30 => field s.level.1 8 0 + field s.level.2 8 8 + field x.spanLo 8 16 + field x.spanHi 8 24
  | 0x38 => flagAt x.cfgBad 0
  | _ => if 0x200 ≤ off && off < 0x260 then u32 x.staged (off - 0x200) else 0

/-- The code of a tenant state (Table 7.1). -/
def TenantState.code : TenantState → Nat
  | .absent => 0
  | .stopped => 1
  | .running => 2
  | .busy => 3
  | .draining => 4
  | .squashing => 5
  | .wedged => 6
  | .removing => 7

/-- A tenant's TNT_ page (Table 7.4). -/
def State.readTnt (s : State) (t off : Nat) : Nat :=
  let x := s.tenant t
  let resetting := x.state == .draining || x.state == .squashing || x.state == .wedged
  match off with
  | 0x00 =>
    field x.state.code 3 0 + flagAt (resetting && x.endStopped) 3 +
      field (if resetting then capAt (s.tick - x.resetAt) 8191 else 0) 13 16
  | 0x08 => flagAt x.profile.authReq 0 + flagAt x.profile.closeOk 1
  | 0x1C => field x.profile.floorOf 13 0 + field x.profile.weight 11 16
  | 0x20 => field x.profile.share 5 0 + field x.profile.keyslots 5 8
  | 0x24 => field x.profile.leaseTicks 21 0
  | 0x28 => field (s.descsOf t) 13 0 + field (capAt (s.tagsOf t) 8191) 13 16
  | 0x2C => field (s.holdsOf t) 14 0 + field (s.cursorsOf t) 9 16
  | 0x30 => field (s.stagingOf t) 16 0
  | 0x34 => x.longOp.elim 0 (fun l => field l.opcode 8 0 + field (s.busyParam t).1 7 8 + 2 ^ 15)
  | 0x38 => field (s.secure.nsbLeft t) 8 0
  | _ => 0

/-- Staging pool (Table 7.5), in KiB. -/
def stagingPool : Nat := 262144

/-- TNT_ global registers (Table 7.5). -/
def State.readTntGlobal (s : State) (off : Nat) : Nat :=
  match off with
  | 0x8000 => field s.sharedLimit 15 0 + field s.sharedUsed 15 16
  | 0x8004 => field s.floorSum 15 0
  | 0x8008 => field (s.descsOf 62) 9 0 + field (s.tagsOf 62) 9 16
  | 0x800C => field (stagingPool - s.stagingUsed) 19 0
  | _ => 0

/-- CIN_ (Table 7.6). -/
def State.readCin (s : State) (off : Nat) : Nat :=
  let x := s.cinch
  let q := (s.chan x.viewCh).req x.viewReq
  let shown (n : Nat) : Nat := if x.viewReq < 35 then n else 0
  match off with
  | 0x00 => flagAt x.preemptEn 0
  | 0x04 => field x.margin 20 0
  | 0x08 => field x.starveTicks 16 0
  | 0x0C => field x.wSpan 11 0
  | 0x10 => field x.wScrub 11 0
  | 0x14 => field x.wUpdate 11 0
  | 0x20 => x.starveT.toNat
  | 0x24 => x.starveS.toNat
  | 0x28 => (List.range 32).foldl (fun n t => n + flagAt (s.masked t) t) 0
  | 0x30 => field x.viewCh 4 0 + field x.viewReq 6 16
  | 0x34 => shown (sfield q.k 32 0)
  | 0x38 => shown (field q.l 3 0 + field q.b 7 8 + flagAt q.urgentAt.isSome 16 + flagAt (!q.flows.isEmpty) 17)
  | 0x3C => shown (field (q.flows.head?.elim 0 (·.moved)) 19 0)
  | 0x40 => shown (capAt q.wait 0xFFFF)
  | _ =>
    if 0x100 ≤ off && off < 0x140 then
      let c := s.chan ((off - 0x100) / 4)
      c.owner.elim 0 (fun r => field r 6 0 + 2 ^ 8 +
        flagAt (((c.req r).flows.head?).elim false (·.urgent.isSome)) 9)
    else 0

/-- AWL_ (Table 9.8). -/
def State.readAwl (s : State) (off : Nat) : Nat :=
  let x := s.awl
  match off with
  | 0x00 => flagAt x.view 0 + flagAt x.loading.isSome 1 + flagAt s.rebuilding 2 + field x.rules.length 14 16
  | 0x04 =>
    field (x.slots.filter (·.owner.isSome)).length 7 0 +
      field (x.slots.filter (fun p => (p.bank p.current).isSome)).length 7 16
  | 0x08 => s.passPercent 4
  | 0x0C => field x.scans.length 8 0
  | 0x10 => field x.entrySel 13 0
  | 0x14 => (assoc x.rules x.entrySel).elim 0 (fun r =>
      field r.pfx.length 6 0 + field r.cls 2 6 + field r.set 4 8 + field (r.tenant.getD 0x3F) 6 12 + flagAt r.v0 18 +
        flagAt r.v1 19)
  | 0x40 => field x.laneSel 4 0
  | 0x44 =>
    (s.boundLane x.laneSel).elim 0 (fun t => field t 6 0 + 2 ^ 8) +
      flagAt (x.stolen.1 == s.tick && x.stolen.2.contains x.laneSel) 9
  | _ =>
    if 0x20 ≤ off && off < 0x40 then
      (assoc x.rules x.entrySel).elim 0 (fun r => beNat (slice (padTo 32 r.pfx) (off - 0x20) 4))
    else 0

/-- One byte of AWL_TMAP: the drive slot of a tenant's slot, its current bank, and whether it is loaded. -/
def State.mapByte (s : State) (t n : Nat) : Nat :=
  match (s.tenant t).pslots[n]? with
  | some d =>
    let p := s.slot d
    field d 6 0 + flagAt p.current 6 + flagAt (p.bank p.current).isSome 7
  | none => 0

/-- A tenant's AWL_ page (Table 9.8). -/
def State.readAwlTenant (s : State) (t off : Nat) : Nat :=
  match off with
  | 0x00 =>
    field ((s.awl.visibleIn s.awl.view).filter (fun r => r.tenant == some t)).length 9 0 + field (s.extents t).length 14 16
  | 0x04 => field (s.tenant t).profile.share 5 0 + field (s.awl.scans.filter (fun c => c.tenant == t)).length 4 8
  | _ =>
    if 0x08 ≤ off && off < 0x18 then
      let k := 4 * ((off - 8) / 4)
      s.mapByte t k + 256 * s.mapByte t (k + 1) + 65536 * s.mapByte t (k + 2) + 16777216 * s.mapByte t (k + 3)
    else 0

/-- LIFE_USED (R329): the greater of mean cycles over 3,000 and the retired spare over the spare at manufacture. -/
def State.lifeUsed (s : State) : Nat :=
  capAt (max (s.media.meanCycles * 100 / 3000000) ((s.spareMade - s.media.spare) * 100 / s.spareMade)) 255

/-- MED_SKV_RATIO (Table 8.9): stored over plaintext bytes of the values committed over the last 125,000 ticks, in thousandths; free
where they hold no plaintext byte. -/
def State.skvRatio (s : State) : Nat :=
  let r := s.media.recent.filter (fun r => s.tick < r.1 + 125000)
  let plain := r.foldl (fun n x => n + x.2.2) 0
  if plain = 0 then Config.openValue s.free 8 else r.foldl (fun n x => n + x.2.1) 0 * 1000 / plain

/-- MED_ (Table 8.9). -/
def State.readMed (s : State) (off : Nat) : Nat :=
  let b := s.media.block ⟨s.media.rrefDie, s.media.rrefBlock⟩
  let v (i : Nat) : Int := b.offsets.getD i 0
  match off with
  | 0x00 =>
    flagAt s.ledger.journalHigh 0 + flagAt s.power.holdupLow 1 + flagAt s.media.wearEnd 2 + field s.ledger.percent 8 8
  | 0x04 => s.lifeUsed + field s.media.spare 16 8
  | 0x08 =>
    s.passPercent 0 + 256 * s.passPercent 1 + 65536 * s.passPercent 2 + 16777216 * s.passPercent 3
  | 0x10 => field s.media.rrefDie 7 0 + field s.media.rrefBlock 24 8
  | 0x14 => sfield (v 0) 6 0 + sfield (v 1) 6 8 + sfield (v 2) 6 16 + sfield (v 3) 6 24
  | 0x18 => sfield (v 4) 6 0 + sfield (v 5) 6 8 + sfield (v 6) 6 16 + flagAt b.limit 31
  | 0x1C => field s.skvRatio 16 0
  | 0x20 => field s.media.lifeSel 5 0
  | _ => 0

/-- CIP_ (Table 10.10). -/
def State.readCip (s : State) (off : Nat) : Nat :=
  match off with
  | 0x00 =>
    field s.secure.lc.code 3 0 + flagAt (s.secure.intent.isSome || s.secure.lcRunning) 3 + field s.secure.epoch 2 4 +
      flagAt s.makerOpen 6
  | 0x04 => field s.secure.transLeft 5 0 + field s.secure.returnsLeft 2 8 + field (64 - s.secure.okekSpent) 7 16
  | 0x08 => s.ident.instanceId % 2 ^ 32
  | 0x10 => field s.secure.fuseSel 6 0
  | 0x20 => s.secure.okekSlot.elim 0 (fun k => kcv k.key)
  | 0x24 => (s.macKey 62).elim 0 kcv
  | 0x28 =>
    field (480 - (s.secure.tack.filter (fun k => k.fn < 32)).length) 9 0 +
      field (s.created.foldl (fun n t => n + (s.tenant t).profile.keyslots) 0) 9 16
  | 0x2C => flagAt s.secure.entFail 0 + flagAt s.secure.seeded 1 + field (capAt s.secure.reseeds 0xFFFF) 16 16
  | _ => 0

/-- The state code of a data key generation (Table 10.11). -/
def GenState.code : GenState → Nat
  | .current => 0
  | .pending => 1
  | .retired => 2

/-- A tenant's key page (Table 10.11). -/
def State.readTkp (s : State) (t off : Nat) : Nat :=
  if off = 0 then
    let cur := s.secure.genIn t .current
    let pend := s.secure.genIn t .pending
    let key := s.writeGen t
    field (cur.elim 0 (·.gen)) 4 0 + field (pend.elim 0 (·.gen)) 4 4 + flagAt cur.isSome 8 + flagAt pend.isSome 9 +
      flagAt (s.secure.makSlot t).isSome 10 + flagAt (key.elim false (fun k => 2 ^ 47 < k.nonce)) 11 +
      flagAt (key.elim false (fun k => k.left == 0)) 12 + field (s.secure.keysOf t).length 5 16
  else match keyEntryAt off with
    | some (n, o) =>
      match s.keyEntry t n with
      | none => 0
      | some k =>
        if o = 0x00 then
          field (if k.kind = .data then 1 else 2) 2 0 +
            (if k.kind = .data then field k.gstate.code 2 2 + field k.gen 4 4 else 0)
        else if o = 0x04 then k.serial % 2 ^ 32
        else if o = 0x08 then kcv k.key
        else 0
    | none => 0

/-- The code of a session state (Table 11.1). -/
def Session.code : Session → Nat
  | .idle => 0
  | .receiving => 1
  | .committed => 2
  | .unconfirmed => 4

/-- UPD_ (Table 11.7). -/
def State.readUpd (s : State) (off : Nat) : Nat :=
  let x := s.update
  match off with
  | 0x00 =>
    field x.session.code 3 0 + flagAt x.selfTestOk 4 + flagAt x.levelWarn 5 + field x.lastResult 3 8 + field (min x.starts 3) 2 12
  | 0x08 => field x.received.length 13 0 + field (manifestBlocks x.stage.manifest) 13 16
  | 0x0C => field (x.deadline.elim 0 (· - s.tick)) 23 0
  | 0x10 => manifestVersion x.active.manifest
  | 0x14 =>
    field (byteAt x.active.manifest 10) 8 0 + field x.dataFmt 8 8 + field x.cfgFmt 8 16 + field (byteAt x.active.manifest 11) 2 24 +
      flagAt (x.session != .unconfirmed) 31
  | 0x18 => if x.stage.blocks.isEmpty then 0 else manifestVersion x.stage.manifest
  | 0x1C => manifestVersion x.fallbackI.manifest
  | 0x20 => field x.minSec 8 0 + field x.revoked.toNat 4 8
  | 0x24 => field x.phase 3 0 + field x.again 12 4
  | 0x28 => field x.commitErr.1 8 0 + field x.commitErr.2 8 8
  | _ => 0

/-- A SerDes lane's registers (Table 8.10). -/
def Lane.read (l : Lane) (off : Nat) : Nat :=
  let tap (i : Nat) : Int := l.taps.getD i 0
  match off with
  | 0x00 => field l.ctle 4 0 + sfield (tap 0) 7 8
  | 0x04 => sfield (tap 1) 6 0 + sfield (tap 2) 6 8 + sfield (tap 3) 6 16 + sfield (tap 4) 6 24
  | 0x08 => field l.eye 8 0 + flagAt l.atLimit 16
  | _ => 0

/-- PWR_ (Table 8.10). -/
def State.readPwr (s : State) (off : Nat) : Nat :=
  let x := s.power
  match off with
  | 0x00 => sfield x.td 8 0 + sfield x.tj 8 8 + sfield x.tbank 8 16
  | 0x04 => field x.reduction 15 0 + flagAt x.clockCap 16 + flagAt x.sensorBad 17
  | 0x08 => field x.thrStart 8 0
  | 0x10 => field x.vfStep 5 0 + field (if x.vfSafe.isSome then 900 else 720 + Config.vddOf x.vfVolt % 181) 10 16 + flagAt x.vfSafe.isSome 31
  | 0x14 => field x.vfCap 5 0
  | 0x18 => sfield x.margin 16 0
  | 0x20 => field x.reserve 8 0 + field x.energy 16 8
  | 0x24 => field x.programLimit 8 0
  | 0x28 => field x.mv 16 0 + field x.cw 16 16
  | _ =>
    if 0x100 ≤ off && off < 0x180 then (x.lanes.getD ((off - 0x100) / 0x20) Lane.reset).read ((off - 0x100) % 0x20) else 0

/-- LCK_ global registers (Table 4.7). -/
def State.readLck (s : State) (off : Nat) : Nat :=
  match off with
  | 0x08 => field s.ledger.debt 22 0
  | 0x0C =>
    flagAt s.ledger.slewing 0 + flagAt (s.span.inOrder && s.span.me != s.span.master) 1 + flagAt s.ledger.timeSet 2
  | 0x40 => field s.engineSteps 20 0
  | 0x44 => field s.ledger.peak 20 0
  | _ => 0

/-- A tenant's LCK_ page (Table 4.8). -/
def State.readLckTenant (s : State) (t off : Nat) : Nat :=
  let x := s.tenant t
  match off with
  | 0x00 => x.day % 2 ^ 32
  | 0x10 => field x.meterLen 16 0
  | 0x14 => x.period.number % 2 ^ 32
  | 0x18 => field x.meterSel 7 0
  | 0x1C =>
    flagAt (x.meterSel == 0) 0 + flagAt (x.shownPeriod.elim false (·.stepBack)) 1 + flagAt x.shownPeriod.isSome 2
  | _ => 0

/-- A register that is neither a counter nor of a pair (Table 13.5). -/
def State.readPlain (s : State) (addr : Nat) : Nat :=
  let off := addr % 0x10000
  if addr < 0x00010000 then s.readGlb off
  else if addr < 0x00018000 then s.readPort .a off
  else if addr < 0x00020000 then s.readPort .b (off - 0x8000)
  else if addr < 0x00030000 then s.readSpan off
  else if addr < 0x00040000 then
    match pageOf 0x00030000 0x400 addr with
    | some (t, o) => s.readTnt t o
    | none => s.readTntGlobal off
  else if addr < 0x00050000 then s.readCin off
  else if addr < 0x00060000 then
    match pageOf 0x00051000 0x40 addr with
    | some (t, o) => s.readAwlTenant t o
    | none => s.readAwl off
  else if addr < 0x00070000 then s.readMed off
  else if addr < 0x00080000 then s.readCip off
  else if addr < 0x000A0000 then ((pageOf 0x00080000 0x1000 addr).elim 0 (fun p => s.readTkp p.1 p.2))
  else if addr < 0x000B0000 then s.readUpd off
  else if addr < 0x000C0000 then s.readPwr off
  else if addr < 0x000D0000 then
    match pageOf 0x000C1000 0x40 addr with
    | some (t, o) => s.readLckTenant t o
    | none => s.readLck off
  else 0

/-- What a read clears: the RC fields that are no counters (GLB_SMB, LCK_ENG_PEAK). -/
def State.readClears (s : State) (addr : Nat) : State :=
  if addr = 0x00000058 then { s with smbus := { s.smbus with addrErr := false, pecErr := false } }
  else if addr = 0x000C0044 then { s with ledger := { s.ledger with peak := 0 } }
  else s

/-- The low word of a pair whose high word an address is. -/
def State.pairBelow (s : State) (addr : Nat) : Option Nat :=
  if 4 ≤ addr && (s.pairAt (addr - 4)).isSome then some (addr - 4) else none

/-- A register read on a path (R21, R22, R133, R467). Free values that a read shows are fresh each time. -/
def State.readReg (s : State) (path : Path) (addr : Nat) : Nat × State :=
  if addr % 4 ≠ 0 || s.pageAbsent addr then (0, s)
  else match counterAt addr with
    | some (lo, true) => s.readCounter path lo
    | some (lo, false) => (s.latch path lo % 2 ^ 16, s)
    | none =>
      let s' : State := { s with free := s.free + 4 }
      match s.pairAt addr with
      | some (v, w) => s'.readPair path addr v w
      | none =>
        match s.pairBelow addr with
        | some lo => (s.latch path lo, s)
        | none => (s.readPlain addr, s'.readClears addr)

end Sys2Proof.Machine
end

