-- ==== Sys2Proof/Machine/RegWrite.lean ====
section
/-! DEFINITION. What a register write does (R21, R133, 0.7.1), and MGMT_READ, MGMT_WRITE and the single register
accesses. Fields take the bits that the tables give them; reserved and read-only bits are ignored. -/
namespace Sys2Proof.Machine
open Sys2Proof

/-! ### Stored fields -/

/-- A value stored where it lies in a field's range, ignored elsewhere (R249, R292, R332). -/
def inRange (v lo hi old : Nat) : Nat := if lo ≤ v && v ≤ hi then v else old

/-- SRC_REQ written (Table 12.9). R438 has a set SRC_REQ begin qualification, and no rule says what clearing it does while
TICK_IN is in use: the model has the TCXO take over at once, with no event and no count (DESIGN CHOICE, assumption log 79). -/
def Power.requestTickIn (x : Power) (req : Bool) : Power :=
  if req then { x with srcReq := true } else { x with srcReq := false, srcIn := false, tickOk := false, slewUntil := 0 }

/-- GLB_ (Table 12.9): SRC_REQ, TRIPPED, PEND and EN. -/
def State.writeGlb (s : State) (off v : Nat) : State :=
  match off with
  | 0x40 => { s with power := s.power.requestTickIn (bit v 0) }
  | 0x50 => { s with power := { s.power with tripped := s.power.tripped && !bit v 1 } }
  | 0x54 =>
    { s with events := { s.events with
      pend := s.events.pend &&& ~~~(BitVec.ofNat 8 v), en := BitVec.ofNat 8 (bits v 15 8) } }
  | _ => s

/-- The addresses of a port changed by a write in a tick: frames whose first byte came by then are judged by the old ones
(R247). -/
def PortState.setAddrs (p : PortState) (tick : Nat) (a : Addrs) : PortState :=
  if a = p.addrs then p else { p with addrs := a, addrHist := (tick, p.addrs) :: p.addrHist }

/-- CTRL bits 5:0 and 7 after a write: SPEED_ALLOW 3 is ignored. -/
def ctrlAfter (old : BitVec 8) (v : Nat) : BitVec 8 :=
  let w := BitVec.ofNat 8 v &&& 0xBF#8
  if bits v 2 1 = 3 then (w &&& 0xF9#8) ||| (old &&& 0x06#8) else w

/-- CTRL of a port (Table 6.4, R239, R247): a cleared ENABLE or a written AN_RESTART takes a link down; a set ENABLE starts
negotiation; transmit LPI ends where it is no longer permitted (R244). -/
def State.writeCtrl (s : State) (port : Port) (v : Nat) : State :=
  let was := (s.port port).ctl 0
  let s := s.modPort port (fun q =>
    let q := { q.setAddrs s.tick { q.addrs with rawEn := bit v 6 } with ctrl := ctrlAfter q.ctrl v }
    let q := { q with lpiOk := q.lpiAllowed s.tick }
    if q.lpiOk then q else q.wake s.tick)
  if bit v 8 || (was && !bit v 0) then s.anRestarts port
  else if !was && bit v 0 then s.modPort port (fun q => q.negotiate s.tick false)
  else s

/-- One word of an IPv6 address, word 0 in the highest bits. -/
def setV6Word (a : BitVec 128) (i v : Nat) : BitVec 128 :=
  let sh := 96 - 32 * i
  (a &&& ~~~(BitVec.ofNat 128 (0xFFFFFFFF * 2 ^ sh))) ||| BitVec.ofNat 128 (v % 2 ^ 32 * 2 ^ sh)

/-- HPA_ and HPB_ but CTRL (Table 6.4). -/
def PortState.write (p : PortState) (tick off v : Nat) : PortState :=
  match off with
  | 0x08 => { p with linkEvt := p.linkEvt &&& ~~~(BitVec.ofNat 4 v) }
  | 0x0C => if v % 2 ^ 16 = 0 then p else p.setAddrs tick { p.addrs with tkxPort := v % 2 ^ 16 }
  | 0x10 => p.setAddrs tick { p.addrs with ipv4 := BitVec.ofNat 32 v }
  | 0x14 => p.setAddrs tick { p.addrs with ipv6 := setV6Word p.addrs.ipv6 0 v }
  | 0x18 => p.setAddrs tick { p.addrs with ipv6 := setV6Word p.addrs.ipv6 1 v }
  | 0x1C => p.setAddrs tick { p.addrs with ipv6 := setV6Word p.addrs.ipv6 2 v }
  | 0x20 => p.setAddrs tick { p.addrs with ipv6 := setV6Word p.addrs.ipv6 3 v }
  | 0x24 => { p with txMtu := inRange (v % 2 ^ 14) 1518 9216 p.txMtu }
  | 0x28 => { p with lpiHold := inRange (v % 2 ^ 16) 1 65535 p.lpiHold }
  | _ => p

/-- A host port's block. -/
def State.writePort (s : State) (port : Port) (off v : Nat) : State :=
  if off = 0 then s.writeCtrl port v else s.modPort port (fun q => q.write s.tick off v)

/-- SPN_ (Table 5.10): CFG_BAD and the staged record, big-endian in each word. -/
def State.writeSpan (s : State) (off v : Nat) : State :=
  if off = 0x38 then { s with span := { s.span with cfgBad := s.span.cfgBad && !bit v 0 } }
  else if 0x200 ≤ off && off < 0x260 then
    let i := off - 0x200
    { s with span := { s.span with staged := s.span.staged.take i ++ toBe 4 v ++ s.span.staged.drop (i + 4) } }
  else s

/-- A tenant's TNT_ page (Table 7.4, R265): AUTH_REQ and CLOSE_DAY_OK, and the cursor lease. -/
def State.writeTnt (s : State) (t off v : Nat) : State :=
  s.modTenant t (fun x =>
    if off = 0x08 then { x with profile := { x.profile with authReq := bit v 0, closeOk := bit v 1 } }
    else if off = 0x24 then { x with profile := { x.profile with lease := inRange (v % 2 ^ 21) 1250 1250000 x.profile.lease } }
    else x)

/-- CIN_ (Table 7.6, R292). -/
def Cinch.write (x : Cinch) (off v : Nat) : Cinch :=
  match off with
  | 0x00 => { x with preemptEn := bit v 0 }
  | 0x04 => { x with margin := inRange (v % 2 ^ 20) 4096 524288 x.margin }
  | 0x08 => { x with starveTicks := inRange (v % 2 ^ 16) 1 65535 x.starveTicks }
  | 0x0C => { x with wSpan := inRange (v % 2 ^ 11) 1 1024 x.wSpan }
  | 0x10 => { x with wScrub := inRange (v % 2 ^ 11) 1 1024 x.wScrub }
  | 0x14 => { x with wUpdate := inRange (v % 2 ^ 11) 1 1024 x.wUpdate }
  | 0x20 => { x with starveT := x.starveT &&& ~~~(BitVec.ofNat 32 v) }
  | 0x24 => { x with starveS := x.starveS &&& ~~~(BitVec.ofNat 3 v) }
  | 0x30 => { x with viewCh := bits v 3 0, viewReq := bits v 21 16 }
  | _ => x

/-- AWL_ (Table 9.8). -/
def Awl.write (x : Awl) (off v : Nat) : Awl :=
  match off with
  | 0x10 => { x with entrySel := bits v 12 0 }
  | 0x40 => { x with laneSel := bits v 3 0 }
  | _ => x

/-- MED_ (Table 8.9). -/
def Media.write (x : Media) (off v : Nat) : Media :=
  match off with
  | 0x10 => { x with rrefDie := bits v 6 0, rrefBlock := bits v 31 8 }
  | 0x20 => { x with lifeSel := bits v 4 0 }
  | _ => x

/-- CIP_ (Table 10.10). -/
def Secure.write (x : Secure) (off v : Nat) : Secure :=
  match off with
  | 0x10 => { x with fuseSel := bits v 5 0 }
  | 0x2C => { x with entFail := x.entFail && !bit v 0 }
  | _ => x

/-- PWR_ (Table 8.10, R332). -/
def Power.write (x : Power) (off v : Nat) : Power :=
  match off with
  | 0x08 => { x with thrStart := inRange (bits v 7 0) 50 70 x.thrStart }
  | 0x14 => { x with vfCap := inRange (bits v 4 0) 12 18 x.vfCap }.capped
  | _ => x

/-- A tenant's LCK_ page (Table 4.8). -/
def State.writeLckTenant (s : State) (t off v : Nat) : State :=
  s.modTenant t (fun x =>
    if off = 0x10 then { x with meterLen := inRange (v % 2 ^ 16) 1 44640 x.meterLen }
    else if off = 0x18 then { x with meterSel := bits v 6 0 }
    else x)

/-- A write to a field that has no command of its own: stored, cleared or ignored by its access code (Table 0.6). -/
def State.writePlain (s : State) (addr v : Nat) : State :=
  let off := addr % 0x10000
  if addr % 4 ≠ 0 || s.pageAbsent addr then s
  else if addr < 0x00010000 then s.writeGlb off v
  else if addr < 0x00018000 then s.writePort .a off v
  else if addr < 0x00020000 then s.writePort .b (off - 0x8000) v
  else if addr < 0x00030000 then s.writeSpan off v
  else if addr < 0x00040000 then (pageOf 0x00030000 0x400 addr).elim s (fun p => s.writeTnt p.1 p.2 v)
  else if addr < 0x00050000 then { s with cinch := s.cinch.write off v }
  else if addr < 0x00051000 then { s with awl := s.awl.write off v }
  else if addr < 0x00060000 then s
  else if addr < 0x00070000 then { s with media := s.media.write off v }
  else if addr < 0x00080000 then { s with secure := s.secure.write off v }
  else if addr < 0x000B0000 then s
  else if addr < 0x000C0000 then { s with power := s.power.write off v }
  else if addr < 0x000D0000 then (pageOf 0x000C1000 0x40 addr).elim s (fun p => s.writeLckTenant p.1 p.2 v)
  else s

/-! ### Fields with a command of their own -/

/-- GLB_RESET: a reset of TYPE where KEY is 0x5253; type 3 is ignored (R441). -/
def State.keyedReset (s : State) (path : Path) (v : Nat) : State :=
  if bits v 31 16 = 0x5253 && bits v 1 0 != 3 then s.causeReset (bits v 1 0) (resetCause path) else s

/-- TNT_CTRL: STOP, then START (R267). -/
def State.tenantCtrl (s : State) (t v : Nat) : State :=
  let s := if bit v 0 then s.stopTenant t else s
  if bit v 1 then s.startTenant t else s

/-- The write-only fields of a tenant's pages: TNT_CTRL, TKP_GEN_ERASE and LCK_TDAY_SET. -/
def State.writeAction (s : State) (addr v : Nat) : State :=
  match pageOf 0x00030000 0x400 addr, pageOf 0x00080000 0x1000 addr, pageOf 0x000C1000 0x40 addr with
  | some (t, 0x04), _, _ => s.tenantCtrl t v
  | _, some (t, 0x04), _ => s.eraseGeneration t v
  | _, _, some (t, 0x04) => s.setDay t v
  | _, _, _ => s

/-- A register write on a path (R21, R451): write-only fields act, other fields follow their access codes. -/
def State.writeReg (s : State) (path : Path) (addr v : Nat) : State :=
  if s.pageAbsent addr then s
  else if addr = 0x00000038 then s.keyedReset path v
  else if addr = 0x0000003C then s.saveSettings v
  else if addr = 0x00020034 then (if bit v 0 then s.cfgGo else s)
  else if addr = 0x000A0004 then s.abortUpdate v
  else (s.writePlain addr v).writeAction addr v

/-! ### The commands -/

/-- Words read in ascending order (R133). -/
def State.readWords (s : State) (path : Path) : Nat → Nat → List Nat × State
  | _, 0 => ([], s)
  | addr, n + 1 =>
    let r := s.readReg path addr
    let rest := r.2.readWords path (addr + 4) n
    (r.1 :: rest.1, rest.2)

/-- Words written in ascending order (R133). -/
def State.writeWords (s : State) (path : Path) : Nat → List Nat → State
  | _, [] => s
  | addr, v :: rest => (s.writeReg path addr v).writeWords path (addr + 4) rest

/-- Register images, little-endian (R16, R133). -/
def wordImages (l : List Nat) : Bytes := (l.map (toLe 4)).flatten

/-- The words that a string of images holds. -/
def imageWords (b : Bytes) : List Nat := (List.range (b.length / 4)).map (fun i => leNat (slice b (4 * i) 4))

/-- MGMT_READ (R133). -/
def State.serveMgmtRead (s : State) (d : Desc) : State :=
  let r := s.readWords .mgmt (d.bitsOf 31 0) (d.bitsOf 39 32)
  r.2.answer d.id .done 0 [] [] (wordImages r.1)

/-- MGMT_READ. -/
def execMgmtRead (id : Nat) (s : State) : Host.Outcome State Fault Refusal :=
  .next (s.serve id 0x70 (fun d s => s.serveMgmtRead d))

/-- MGMT_WRITE (R133): DONE whatever the fields do with it. -/
def State.serveMgmtWrite (s : State) (d : Desc) : State :=
  (s.writeWords .mgmt (d.bitsOf 31 0) (imageWords d.value)).finish d.id 0

/-- MGMT_WRITE. -/
def execMgmtWrite (id : Nat) (s : State) : Host.Outcome State Fault Refusal :=
  .next (s.serve id 0x71 (fun d s => s.serveMgmtWrite d))

/-- REGISTER_WRITE (R21): a field that has no command of its own. -/
def execRegisterWrite (addr : Nat) (value : Word) (s : State) : Host.Outcome State Fault Refusal :=
  .next (s.writePlain addr value.toNat)

/-- What a path sees of a register read: SMBus holds the last answer. -/
def State.shown (s : State) (path : Path) (v : Nat) : State :=
  match path with
  | .mgmt => s
  | .smbus => { s with smbus := { s.smbus with out := toLe 4 v } }

/-- An address that a path reaches (R20, R451). -/
def pathReaches (path : Path) (addr : Nat) : Bool :=
  match path with
  | .mgmt => addr < 0x000D0000
  | .smbus => addr < 0x00010000 || (0x000B0000 ≤ addr && addr < 0x000C0000)

/-- COUNTER_LO_READ (R22): a read of a counter's _LO word. -/
def execCounterLoRead (path : Path) (addr : Nat) (s : State) : Host.Outcome State Fault Refusal :=
  if counterAt addr = some (addr, true) && pathReaches path addr && !s.pageAbsent addr then
    let r := s.readCounter path addr
    .next (r.2.shown path r.1)
  else .next s

/-- PAIR_L_READ (R467): a read of the _L word of a pair that is no counter. -/
def execPairLRead (path : Path) (addr : Nat) (s : State) : Host.Outcome State Fault Refusal :=
  match s.pairAt addr with
  | some (v, w) =>
    if pathReaches path addr && !s.pageAbsent addr then
      let r := ({ s with free := s.free + 4 }).readPair path addr v w
      .next (r.2.shown path r.1)
    else .next s
  | none => .next s

end Sys2Proof.Machine
end

