-- ==== Sys2Proof/Machine/Smbus.lean ====
section
/-! DEFINITION. SMBus (12.7): the pointer, block reads, word writes, the flags and the alert response. -/
namespace Sys2Proof.Machine
open Sys2Proof

/-- The standby fields of the GLB_ block, and PWR_TEMP (R449, Table 12.9), by register address. GLB_PART is one of them in
its CAP bits only, GLB_THERM in TRIPPED only. -/
def standbyRegs : List Nat :=
  [0x00, 0x04, 0x08, 0x0C, 0x10, 0x14, 0x2C, 0x30, 0x34, 0x44, 0x48, 0x4C, 0x50, 0x54, 0x58, 0x100, 0x104, 0x108, 0x10C,
   0x118, 0x11C, 0x000B0000]

/-- Fields outside the standby domain read as zero until phase 1 ends (R449). In the model, start-up's phases are one
command, so phase 1 has ended where the drive serves or stands in RESCUE. -/
def State.fieldsUp (s : State) : Bool := s.boot.phase == 9 || s.boot.phase == 15

/-- The bits of a word that the standby domain holds. -/
def standbyBits (addr v : Nat) : Nat :=
  if addr = 0x04 then v % 2 ^ 16 else if addr = 0x50 then v / 2 * 2 % 4 else v

/-- A word as SMBus reads it (R449, R451). -/
def State.smbRead (s : State) (addr : Nat) : Nat × State :=
  if !pathReaches .smbus addr then (0, s)
  else if s.fieldsUp then s.readReg .smbus addr
  else if standbyRegs.contains addr then
    let r := s.readReg .smbus addr
    (standbyBits addr r.1, r.2)
  else (0, s)

/-- Words read one after another (Table 12.7). -/
def State.smbWords (s : State) : Nat → Nat → List Nat × State
  | _, 0 => ([], s)
  | addr, n + 1 =>
    let r := s.smbRead addr
    let rest := r.2.smbWords (addr + 4) n
    (r.1 :: rest.1, rest.2)

/-- A transaction that the standby domain hears: 12 V present (R449). One with a wrong PEC is discarded whole, sets PEC_ERR
and counts (R451). -/
def State.smb (s : State) (pecGood : Bool) (act : State → State) : State :=
  if !s.power.supplyGood then s
  else if !pecGood then { s with smbus := { s.smbus with pecErr := true } }.bump 0x00000118
  else act s

/-- ADDR_ERR set. -/
def State.addrError (s : State) : State := { s with smbus := { s.smbus with addrErr := true } }

/-- Command 0x01: pointer and count; a pointer outside the two blocks or a count outside 1 to 8 sets ADDR_ERR (R451). -/
def State.smbPoint (s : State) (data : Bytes) : State :=
  if data.length ≠ 5 then s
  else
    let ptr := leNat (data.take 4)
    let k := byteAt data 4
    let s' : State := { s with smbus := { s.smbus with ptr := ptr, count := k } }
    if pathReaches .smbus ptr && ptr % 4 = 0 && 1 ≤ k && k ≤ 8 then s' else s'.addrError

/-- SMB_SET_POINTER (R450). -/
def execSmbSetPointer (data : Bytes) (pecGood : Bool) (s : State) : Host.Outcome State Fault Refusal :=
  .next (s.smb pecGood (fun s => s.smbPoint data))

/-- Command 0x02: k words from the pointer, all sampled in one tick, and the pointer advanced by 4 k. Where the count is
outside 1 to 8 the read returns one word of zeros. -/
def State.smbBlock (s : State) : State :=
  let x := s.smbus
  if 1 ≤ x.count && x.count ≤ 8 then
    let r := s.smbWords x.ptr x.count
    { r.2 with smbus := { r.2.smbus with ptr := (x.ptr + 4 * x.count) % 2 ^ 32, out := wordImages r.1 } }
  else { s with smbus := { x with addrErr := true, out := [0#8, 0#8, 0#8, 0#8] } }

/-- SMB_BLOCK_READ (R450). A read whose pointer has left the two blocks sets ADDR_ERR (R451). -/
def execSmbBlockRead (pecGood : Bool) (s : State) : Host.Outcome State Fault Refusal :=
  .next (s.smb pecGood (fun s => if pathReaches .smbus s.smbus.ptr then s.smbBlock else s.smbBlock.addrError))

/-- Command 0x03: effective in GLB_RESET and GLB_ALERT bits 15:8 only (R451). The pointer advances by 4. -/
def State.smbWrite (s : State) (data : Bytes) : State :=
  if data.length ≠ 4 then s
  else
    let v := leNat data
    let p := s.smbus.ptr
    let s : State := { s with smbus := { s.smbus with ptr := (p + 4) % 2 ^ 32 } }
    if !pathReaches .smbus p then s.addrError
    else if p = 0x00000038 then s.keyedReset .smbus v
    else if p = 0x00000054 then { s with events := { s.events with en := BitVec.ofNat 8 (bits v 15 8) } }
    else s

/-- SMB_WRITE_WORD (R451). -/
def execSmbWriteWord (data : Bytes) (pecGood : Bool) (s : State) : Host.Outcome State Fault Refusal :=
  .next (s.smb pecGood (fun s => s.smbWrite data))

/-- Command 0x04: the flags of GLB_SMB, returned and cleared. -/
def State.smbFlags (s : State) : State :=
  { s with smbus := { s.smbus with
    out := [BitVec.ofNat 8 (flagAt s.smbus.addrErr 0 + flagAt s.smbus.pecErr 1)], addrErr := false, pecErr := false } }

/-- SMB_READ_FLAGS (R450). -/
def execSmbReadFlags (pecGood : Bool) (s : State) : Host.Outcome State Fault Refusal :=
  .next (s.smb pecGood (fun s => s.smbFlags))

/-- SMB_ALERT_N is held low (R452). -/
def State.alertLow (s : State) : Bool := s.events.pend &&& s.events.en != 0#8

/-- SMB_ALERT_RESPONSE (R452): 0xB4 while the line is held, else no answer. -/
def execSmbAlertResponse (s : State) : Host.Outcome State Fault Refusal :=
  if s.power.supplyGood then .next { s with smbus := { s.smbus with out := if s.alertLow then [0xB4#8] else [] } }
  else .next s

end Sys2Proof.Machine
end

