-- ==== Sys2Proof/Machine/Dispatch.lean ====
section
/-! DEFINITION. Dispatch: one arm per command, each one direct call of its meaning. -/
namespace Sys2Proof.Machine

def exec (i : Instr) (s : State) : Host.Outcome State Fault Refusal :=
  match i with
  | .hostFrameReceive port frame pos dur => Sys2Proof.Machine.execHostFrameReceive port frame pos dur s
  | .durableCeilingWrite fn space => Sys2Proof.Machine.execDurableCeilingWrite fn space s
  | .lldpduReceive port => Sys2Proof.Machine.execLldpduReceive port s
  | .partnerEeeTlvExpire port => Sys2Proof.Machine.execPartnerEeeTlvExpire port s
  | .lldpduSend port => Sys2Proof.Machine.execLldpduSend port s
  | .transmitLpiEnter port => Sys2Proof.Machine.execTransmitLpiEnter port s
  | .transmitFrame port => Sys2Proof.Machine.execTransmitFrame port s
  | .autoNegotiationComplete port partner => Sys2Proof.Machine.execAutoNegotiationComplete port partner s
  | .linkUp port => Sys2Proof.Machine.execLinkUp port s
  | .linkUpTimeout port => Sys2Proof.Machine.execLinkUpTimeout port s
  | .linkDown port rxCut txCut => Sys2Proof.Machine.execLinkDown port rxCut txCut s
  | .anRestart port => Sys2Proof.Machine.execAnRestart port s
  | .segmentContinue id => Sys2Proof.Machine.execSegmentContinue id s
  | .segmentLate id => Sys2Proof.Machine.execSegmentLate id s
  | .get id => Sys2Proof.Machine.execGet id s
  | .getGeneric id => Sys2Proof.Machine.execGetGeneric id s
  | .getHold id => Sys2Proof.Machine.execGetHold id s
  | .release id => Sys2Proof.Machine.execRelease id s
  | .put id late => Sys2Proof.Machine.execPut id late s
  | .putIfVersion id late => Sys2Proof.Machine.execPutIfVersion id late s
  | .rewrite id late => Sys2Proof.Machine.execRewrite id late s
  | .patch id late => Sys2Proof.Machine.execPatch id late s
  | .delete id late => Sys2Proof.Machine.execDelete id late s
  | .browseOpen id => Sys2Proof.Machine.execBrowseOpen id s
  | .browseNext id => Sys2Proof.Machine.execBrowseNext id s
  | .browsePrev id => Sys2Proof.Machine.execBrowsePrev id s
  | .browseClose id => Sys2Proof.Machine.execBrowseClose id s
  | .post id late => Sys2Proof.Machine.execPost id late s
  | .postingStage3 => Sys2Proof.Machine.execPostingStage3 s
  | .postProgram id late => Sys2Proof.Machine.execPostProgram id late s
  | .programTreeRun => Sys2Proof.Machine.execProgramTreeRun s
  | .halt => Sys2Proof.Machine.execHalt s
  | .ldi a imm => Sys2Proof.Machine.execLdi a imm s
  | .ldc a imm => Sys2Proof.Machine.execLdc a imm s
  | .mov a b => Sys2Proof.Machine.execMov a b s
  | .add a b => Sys2Proof.Machine.execAdd a b s
  | .sub a b => Sys2Proof.Machine.execSub a b s
  | .mul a b => Sys2Proof.Machine.execMul a b s
  | .div a b => Sys2Proof.Machine.execDiv a b s
  | .rem a b => Sys2Proof.Machine.execRem a b s
  | .muldiv a b imm => Sys2Proof.Machine.execMuldiv a b imm s
  | .neg a => Sys2Proof.Machine.execNeg a s
  | .cmp a b => Sys2Proof.Machine.execCmp a b s
  | .br a imm => Sys2Proof.Machine.execBr a imm s
  | .ldbe a b imm => Sys2Proof.Machine.execLdbe a b imm s
  | .stbe a b imm => Sys2Proof.Machine.execStbe a b imm s
  | .ldpd a b imm => Sys2Proof.Machine.execLdpd a b imm s
  | .stpd a b imm => Sys2Proof.Machine.execStpd a b imm s
  | .ldzd a b imm => Sys2Proof.Machine.execLdzd a b imm s
  | .stzd a b imm => Sys2Proof.Machine.execStzd a b imm s
  | .len a imm => Sys2Proof.Machine.execLen a imm s
  | .setlen a imm => Sys2Proof.Machine.execSetlen a imm s
  | .read a imm => Sys2Proof.Machine.execRead a imm s
  | .write a imm => Sys2Proof.Machine.execWrite a imm s
  | .del a imm => Sys2Proof.Machine.execDel a imm s
  | .leg a b imm => Sys2Proof.Machine.execLeg a b imm s
  | .clk a imm => Sys2Proof.Machine.execClk a imm s
  | .call imm => Sys2Proof.Machine.execCall imm s
  | .fail imm => Sys2Proof.Machine.execFail imm s
  | .long imm => Sys2Proof.Machine.execLong imm s
  | .closeDay id => Sys2Proof.Machine.execCloseDay id s
  | .scan id => Sys2Proof.Machine.execScan id s
  | .scanCount id => Sys2Proof.Machine.execScanCount id s
  | .patternLoad slot => Sys2Proof.Machine.execPatternLoad slot s
  | .patternPersist slot => Sys2Proof.Machine.execPatternPersist slot s
  | .scanTimeLimit id => Sys2Proof.Machine.execScanTimeLimit id s
  | .verify id => Sys2Proof.Machine.execVerify id s
  | .setTime id => Sys2Proof.Machine.execSetTime id s
  | .slewEnd => Sys2Proof.Machine.execSlewEnd s
  | .query id => Sys2Proof.Machine.execQuery id s
  | .formatTenant id => Sys2Proof.Machine.execFormatTenant id s
  | .rekey id => Sys2Proof.Machine.execRekey id s
  | .compact id => Sys2Proof.Machine.execCompact id s
  | .longOperationComplete tenant => Sys2Proof.Machine.execLongOperationComplete tenant s
  | .mgmtRead id => Sys2Proof.Machine.execMgmtRead id s
  | .mgmtWrite id => Sys2Proof.Machine.execMgmtWrite id s
  | .registerWrite addr value => Sys2Proof.Machine.execRegisterWrite addr value s
  | .counterLoRead path addr => Sys2Proof.Machine.execCounterLoRead path addr s
  | .pairLRead path addr => Sys2Proof.Machine.execPairLRead path addr s
  | .functionReset id => Sys2Proof.Machine.execFunctionReset id s
  | .drainLimit tenant => Sys2Proof.Machine.execDrainLimit tenant s
  | .resetComplete tenant => Sys2Proof.Machine.execResetComplete tenant s
  | .wedgeLimit tenant => Sys2Proof.Machine.execWedgeLimit tenant s
  | .fullReset id => Sys2Proof.Machine.execFullReset id s
  | .tenantCreate id => Sys2Proof.Machine.execTenantCreate id s
  | .tenantResize id => Sys2Proof.Machine.execTenantResize id s
  | .tenantRemove id => Sys2Proof.Machine.execTenantRemove id s
  | .tenantStop tenant => Sys2Proof.Machine.execTenantStop tenant s
  | .tenantStart tenant => Sys2Proof.Machine.execTenantStart tenant s
  | .ruleLoad id => Sys2Proof.Machine.execRuleLoad id s
  | .lcTransition id => Sys2Proof.Machine.execLcTransition id s
  | .keyLoad id => Sys2Proof.Machine.execKeyLoad id s
  | .tkpGenErase tenant value => Sys2Proof.Machine.execTkpGenErase tenant value s
  | .lckTdaySet tenant day => Sys2Proof.Machine.execLckTdaySet tenant day s
  | .updBegin id => Sys2Proof.Machine.execUpdBegin id s
  | .updBlock id => Sys2Proof.Machine.execUpdBlock id s
  | .updCommit id => Sys2Proof.Machine.execUpdCommit id s
  | .updActivate id => Sys2Proof.Machine.execUpdActivate id s
  | .healthConfirm id => Sys2Proof.Machine.execHealthConfirm id s
  | .updAbort value => Sys2Proof.Machine.execUpdAbort value s
  | .updAbandoned => Sys2Proof.Machine.execUpdAbandoned s
  | .selfTestsPassed => Sys2Proof.Machine.execSelfTestsPassed s
  | .halterReset why => Sys2Proof.Machine.execHalterReset why s
  | .spanJoin id => Sys2Proof.Machine.execSpanJoin id s
  | .spanJoinTimeout => Sys2Proof.Machine.execSpanJoinTimeout s
  | .spanLeave id => Sys2Proof.Machine.execSpanLeave id s
  | .spanStatus id => Sys2Proof.Machine.execSpanStatus id s
  | .spnCfgGo => Sys2Proof.Machine.execSpnCfgGo s
  | .slotStart => Sys2Proof.Machine.execSlotStart s
  | .windowClose => Sys2Proof.Machine.execWindowClose s
  | .rein port frame arrival => Sys2Proof.Machine.execRein port frame arrival s
  | .reinRegenerate => Sys2Proof.Machine.execReinRegenerate s
  | .silentMember member => Sys2Proof.Machine.execSilentMember member s
  | .batch port frame => Sys2Proof.Machine.execBatch port frame s
  | .trailer port frame => Sys2Proof.Machine.execTrailer port frame s
  | .ack port frame => Sys2Proof.Machine.execAck port frame s
  | .batchCommit orderFirst set => Sys2Proof.Machine.execBatchCommit orderFirst set s
  | .digestReport port frame => Sys2Proof.Machine.execDigestReport port frame s
  | .rotationStart => Sys2Proof.Machine.execRotationStart s
  | .digestDecision => Sys2Proof.Machine.execDigestDecision s
  | .joinReq port frame => Sys2Proof.Machine.execJoinReq port frame s
  | .configXfer port frame => Sys2Proof.Machine.execConfigXfer port frame s
  | .probe port frame => Sys2Proof.Machine.execProbe port frame s
  | .probeEcho port frame now upstream => Sys2Proof.Machine.execProbeEcho port frame now upstream s
  | .probePeriod => Sys2Proof.Machine.execProbePeriod s
  | .batchReq port frame => Sys2Proof.Machine.execBatchReq port frame s
  | .batchResend port frame => Sys2Proof.Machine.execBatchResend port frame s
  | .batchRepairTimeout orderFirst => Sys2Proof.Machine.execBatchRepairTimeout orderFirst s
  | .resyncReq port frame => Sys2Proof.Machine.execResyncReq port frame s
  | .resyncData port frame => Sys2Proof.Machine.execResyncData port frame s
  | .ringLaneLoss port => Sys2Proof.Machine.execRingLaneLoss port s
  | .ringUnwrap => Sys2Proof.Machine.execRingUnwrap s
  | .floorTimeout id => Sys2Proof.Machine.execFloorTimeout id s
  | .holdExpire tenant hold => Sys2Proof.Machine.execHoldExpire tenant hold s
  | .cursorExpire tenant slot => Sys2Proof.Machine.execCursorExpire tenant slot s
  | .journalRecordComplete => Sys2Proof.Machine.execJournalRecordComplete s
  | .readComplete id outcome blk others => Sys2Proof.Machine.execReadComplete id outcome blk others s
  | .destageComplete => Sys2Proof.Machine.execDestageComplete s
  | .meteringPeriodClose tenant => Sys2Proof.Machine.execMeteringPeriodClose tenant s
  | .wallTimeJournal => Sys2Proof.Machine.execWallTimeJournal s
  | .tickCountJournal => Sys2Proof.Machine.execTickCountJournal s
  | .cinchCreditTick => Sys2Proof.Machine.execCinchCreditTick s
  | .cinchGrant ch => Sys2Proof.Machine.execCinchGrant ch s
  | .cinchPreempt ch => Sys2Proof.Machine.execCinchPreempt ch s
  | .transferUrgent ch requester => Sys2Proof.Machine.execTransferUrgent ch requester s
  | .cinchTransferEnd ch => Sys2Proof.Machine.execCinchTransferEnd ch s
  | .cinchStarved ch requester => Sys2Proof.Machine.execCinchStarved ch requester s
  | .burnisherWalk piece => Sys2Proof.Machine.execBurnisherWalk piece s
  | .blockRefresh blk to_ => Sys2Proof.Machine.execBlockRefresh blk to_ s
  | .ageCounterUpdate => Sys2Proof.Machine.execAgeCounterUpdate s
  | .dieRetire ch die => Sys2Proof.Machine.execDieRetire ch die s
  | .ruleParityError entry shadowGood => Sys2Proof.Machine.execRuleParityError entry shadowGood s
  | .automatonParityError slot bank otherTileGood => Sys2Proof.Machine.execAutomatonParityError slot bank otherTileGood s
  | .partialWordWrite mem addr offset data found => Sys2Proof.Machine.execPartialWordWrite mem addr offset data found s
  | .fabricBurstCut => Sys2Proof.Machine.execFabricBurstCut s
  | .lifetimeRecordCopy => Sys2Proof.Machine.execLifetimeRecordCopy s
  | .holdupMeasure millijoules => Sys2Proof.Machine.execHoldupMeasure millijoules s
  | .holdupChargeComplete millijoules => Sys2Proof.Machine.execHoldupChargeComplete millijoules s
  | .vfStepDown margin => Sys2Proof.Machine.execVfStepDown margin s
  | .vfStepUp margin => Sys2Proof.Machine.execVfStepUp margin s
  | .vfSafe margin plausible => Sys2Proof.Machine.execVfSafe margin plausible s
  | .vfSafeEnd => Sys2Proof.Machine.execVfSafeEnd s
  | .serdesMargin lane => Sys2Proof.Machine.execSerdesMargin lane s
  | .thermalLoopUpdate temps => Sys2Proof.Machine.execThermalLoopUpdate temps s
  | .powerLimit centiwatts => Sys2Proof.Machine.execPowerLimit centiwatts s
  | .thermalHigh td => Sys2Proof.Machine.execThermalHigh td s
  | .thermalOk td => Sys2Proof.Machine.execThermalOk td s
  | .thermalTrip td tj => Sys2Proof.Machine.execThermalTrip td tj s
  | .thermalHoldEnd => Sys2Proof.Machine.execThermalHoldEnd s
  | .powerFail programs => Sys2Proof.Machine.execPowerFail programs s
  | .powerGood => Sys2Proof.Machine.execPowerGood s
  | .pwrDisAssert => Sys2Proof.Machine.execPwrDisAssert s
  | .pwrDisRelease => Sys2Proof.Machine.execPwrDisRelease s
  | .resetNAssert => Sys2Proof.Machine.execResetNAssert s
  | .resetNRelease => Sys2Proof.Machine.execResetNRelease s
  | .leverOpen => Sys2Proof.Machine.execLeverOpen s
  | .glbResetController path => Sys2Proof.Machine.execGlbResetController path s
  | .glbResetDrive path => Sys2Proof.Machine.execGlbResetDrive path s
  | .glbResetPower path => Sys2Proof.Machine.execGlbResetPower path s
  | .resetBegin => Sys2Proof.Machine.execResetBegin s
  | .startUp found => Sys2Proof.Machine.execStartUp found s
  | .glbCfgSave value => Sys2Proof.Machine.execGlbCfgSave value s
  | .tickInQualified missed ppm phase => Sys2Proof.Machine.execTickInQualified missed ppm phase s
  | .tickLost byFrequency => Sys2Proof.Machine.execTickLost byFrequency s
  | .tackRemask slot mask => Sys2Proof.Machine.execTackRemask slot mask s
  | .tackParityError slot recordGood => Sys2Proof.Machine.execTackParityError slot recordGood s
  | .entropyReseed passed => Sys2Proof.Machine.execEntropyReseed passed s
  | .keyRecordPersist record => Sys2Proof.Machine.execKeyRecordPersist record s
  | .eventForm => Sys2Proof.Machine.execEventForm s
  | .smbSetPointer data pecGood => Sys2Proof.Machine.execSmbSetPointer data pecGood s
  | .smbBlockRead pecGood => Sys2Proof.Machine.execSmbBlockRead pecGood s
  | .smbWriteWord data pecGood => Sys2Proof.Machine.execSmbWriteWord data pecGood s
  | .smbReadFlags pecGood => Sys2Proof.Machine.execSmbReadFlags pecGood s
  | .smbAlertResponse => Sys2Proof.Machine.execSmbAlertResponse s
  | .ringLaneLock port => Sys2Proof.Machine.execRingLaneLock port s
  | .receiveLpiEnter port => Sys2Proof.Machine.execReceiveLpiEnter port s
  | .receiveLpiExit port => Sys2Proof.Machine.execReceiveLpiExit port s
  | .powerLimitRelease centiwatts => Sys2Proof.Machine.execPowerLimitRelease centiwatts s
  | .leverClose => Sys2Proof.Machine.execLeverClose s
  | .actNRelease => Sys2Proof.Machine.execActNRelease s
  | .tenantCreateComplete tenant => Sys2Proof.Machine.execTenantCreateComplete tenant s
  | .tenantRemoveComplete tenant => Sys2Proof.Machine.execTenantRemoveComplete tenant s
  | .lcTransitionDone => Sys2Proof.Machine.execLcTransitionDone s
  | .ruleLoadValidate => Sys2Proof.Machine.execRuleLoadValidate s
  | .keyLoadComplete => Sys2Proof.Machine.execKeyLoadComplete s
  | .updBlockComplete copyAGood copyBGood => Sys2Proof.Machine.execUpdBlockComplete copyAGood copyBGood s
  | .updCommitComplete => Sys2Proof.Machine.execUpdCommitComplete s

end Sys2Proof.Machine
end

