-- ==== Sys2Proof/Machine/Tick.lean ====
section
/-! DEFINITION. What passes with one tick of the drive (R8, R170, R182, R318, Table 8.8, R463): the step that the model
makes on an empty queue (assumption log 1). -/
namespace Sys2Proof.Machine
open Sys2Proof

/-- Wall time over one tick: 8 µs; 7 µs while a slew pays its debt at 1 µs a tick (R170, R171); nothing while it
waits for a time master that is behind it (R215). -/
def Ledger.tickWall (x : Ledger) : Ledger :=
  if 0 < x.stall then { x with wall := (x.wall + (8 - x.stall)) % 2 ^ 63, stall := x.stall - 8 }
  else if x.slewing && 0 < x.debt then { x with wall := (x.wall + 7) % 2 ^ 63, debt := x.debt - 1 }
  else { x with wall := (x.wall + 8) % 2 ^ 63 }

/-- The field of the lifetime record that counts powered ticks at a drive temperature (Table 8.8, fields 8 to 15). -/
def lifeBucket (td : Int) : Nat :=
  if td < 30 then 8 else if td < 40 then 9 else if td < 50 then 10 else if td < 60 then 11
  else if td < 70 then 12 else if td < 80 then 13 else if td < 85 then 14 else 15

/-- The age counter and the lifetime record over one tick (R318, Table 8.8). The multiplier is kept in units of 2 ^ -32
(assumption log 18). -/
def Media.tickAge (x : Media) (td : Int) : Media :=
  let sum := x.ageFrac + x.ageRate
  let age := x.age + sum / 2 ^ 32
  { x with
    age := age
    ageFrac := sum % 2 ^ 32
    life := ((x.life.set 6 age).modify 7 (· + 1)).modify (lifeBucket td) (· + 1) }

/-- The core loop over one tick (R323): the ticks for which the worst margin has stayed at 6 % or more, and what a step leaves for the
tick after it: the frequency of a step up, the voltage of a step down. -/
def Power.tickCore (x : Power) : Power :=
  { x with
    vfGood := if 60 ≤ x.margin then x.vfGood + 1 else 0
    vfStep := if x.vfUp then min x.vfVolt (max 12 x.stepCap) else x.vfStep
    vfVolt := if x.vfUp then x.vfVolt else x.vfStep
    vfUp := false }

/-- The tenants to whose queues a flash channel is granted, one for each channel (R182). -/
def Cinch.busyTenants (x : Cinch) : List Nat := x.chans.filterMap (fun c => c.owner.filter (· < 32))

/-- Flash busy ticks of the open periods (R182). -/
def State.tickBusy (s : State) : State :=
  s.cinch.busyTenants.foldl (fun s t =>
    s.modTenant t (fun x => { x with period := { x.period with busy := x.period.busy + 1 } })) s

/-- A tenant over the start of a tick: one that START was written for runs (R267), and a reset that is complete has been so since the
tick before (R274). -/
def State.tickTenant (s : State) (i : Nat) (t : Tenant) : Tenant :=
  { t with
    state := if t.startDue && t.state == .stopped then .running else t.state
    startDue := false
    emptied := t.emptied || ((t.state == .draining || t.state == .squashing) && s.drained i) }

/-- RS-FEC codewords corrected and uncorrectable in one tick of a link that runs with it (6.2.1): free numbers, of at most the 39
codewords that a tick carries (assumption log 136). -/
def State.tickFec (s : State) (p : Port) : State :=
  let q := s.port p
  if q.up && q.an.elim false (fun a => a.fec == 2) then
    let bad := Config.openValue s.free 15 % 40
    let n := Config.openValue s.free 16 % (40 - bad)
    let add (s : State) (off k : Nat) : State := s.bumpBy (portBase p + off) k
    add (add { s with free := s.free + 1 } 0x1B0 n) 0x1B8 bad
  else s

/-- One tick passes; the ring's waiting frames leave. Without rails the tick count stands still (R13, R440). -/
def State.tickPasses (s : State) : State :=
  if s.dark then s
  else
    let s := { s with
      tick := s.tick + 1
      tenants := s.tenants.mapIdx s.tickTenant
      ledger := s.ledger.tickWall
      media := s.media.tickAge s.power.td
      power := s.power.tickCore
      secure := s.secure.tickFuses (s.tick + 1)
      span := s.span.drain }
    let s := (s.tickBusy.adaptLanes.tickFec .a).tickFec .b
    let s := if 0 < s.power.reduction then s.bump 0x000B0210 else s
    { s with events := s.events.flush s.tick s.ledger.wall }

end Sys2Proof.Machine
end

