-- ==== Sys2Proof/Safety.lean ====
section
/-! DEFINITION. What counts as a sound state of the drive, and the conditions that the statements share. -/
namespace Sys2Proof
open Sys2Proof.Machine

/-- The counters keep their canonical form (R22, R23): rising addresses, none zero and none above 2 ^ 48 - 1. -/
def Safety.countersWf : List (Nat × Nat) → Bool
  | [] => true
  | [p] => 0 < p.2 && p.2 < 2 ^ 48
  | p :: q :: rest => 0 < p.2 && p.2 < 2 ^ 48 && p.1 < q.1 && Safety.countersWf (q :: rest)

/-- A sound state: word memory and counters in canonical form, and the 32 tenant ids of Table 0.2. -/
def Safety.Inv (s : State) : Prop :=
  wordsWf s.media.words = true ∧ Safety.countersWf s.counters = true ∧ s.tenants.length = 32

/-- A request of an opcode waits to be served: its descriptor has passed the decisions of Table 2.6 (R90) and the common
checks of R104. -/
def Safety.Waits (s : State) (id op : Nat) (d : Desc) : Prop :=
  s.desc id = some d ∧ d.op = op ∧ d.phase = .parsed ∧ r104 s d = none

/-- A key that its tenant owns in a local range, with the rule lookup at work (R33, R38, R360). -/
def Safety.LocalKey (s : State) (fn : Nat) (key : Bytes) : Prop :=
  s.rebuilding = false ∧ s.owns fn key = true ∧ s.keySet key = 0

/-- The engine is about to execute an instruction of tally code: the tree under way, or that of the front program, has not
ended, its running frame's next instruction is this one, and a step is left (R155, R165, R167). -/
def Safety.Runs (s : State) (i : Instr) (t : Tree) (f : Frame) (rest : List Frame) : Prop :=
  s.engineTree = some t ∧ t.ended = none ∧ t.frames = f :: rest ∧ t.current = some i ∧ 0 < t.stepsLeft

/-- The drive with the engine's tree as an instruction leaves it: one step fewer, and this list of frames. -/
def Safety.ran (s : State) (t : Tree) (frames : List Frame) : State :=
  { s with ledger := { s.ledger with tree := some { t with stepsLeft := t.stepsLeft - 1, frames := frames } } }

/-- The ring port, frame and frame type of a ring-frame command (Table 5.2). -/
def Safety.ringCommand : Instr → Option (RingPort × Bytes × Nat)
  | .rein p f _ => some (p, f, 1)
  | .batch p f => some (p, f, 2)
  | .trailer p f => some (p, f, 3)
  | .ack p f => some (p, f, 4)
  | .digestReport p f => some (p, f, 5)
  | .joinReq p f => some (p, f, 6)
  | .configXfer p f => some (p, f, 7)
  | .probe p f => some (p, f, 8)
  | .probeEcho p f _ _ => some (p, f, 9)
  | .batchReq p f => some (p, f, 10)
  | .batchResend p f => some (p, f, 11)
  | .resyncReq p f => some (p, f, 12)
  | .resyncData p f => some (p, f, 13)
  | _ => none

/-- A whole frame of a type from another member is heard at a ring port of a serving drive in a span: it fits in the receive buffer
(R229), and it is addressed to this member, or to all and seen in the direction of its type (R186, R189). -/
def Safety.Heard (s : State) (port : RingPort) (frame : Bytes) (type : Nat) (f : RingFrame) : Prop :=
  s.span.state ≠ .none ∧ s.serving = true ∧ parseRing frame = .ok f ∧ f.type = type ∧ f.source ≠ s.span.me ∧
    s.span.rx (port == .up) + frame.length ≤ 262144 ∧
    (f.target = s.span.me ∨ (f.target = 0xFF ∧ (port == .up) = primaryType type))

/-- The drive with a frame in its receive buffer, out of which a free number of bytes has been worked off (R229). -/
def Safety.received (s : State) (port : RingPort) (frame : Bytes) : State :=
  let left := s.span.rx (port == .up) - Config.openValue s.free 10 + frame.length
  { s with free := s.free + 1, span := if (port == .up) = true then { s.span with rxUp := left } else { s.span with rxDn := left } }

/-- The drive that has heard a frame: it is in the receive buffer, its sender is no longer silent, and a frame that is not addressed
to this member goes on in its direction as `g` (R186, R213). -/
def Safety.passed (s : State) (port : RingPort) (frame : Bytes) (f g : RingFrame) : State :=
  let t := Safety.received s port frame
  let x := t.span.hear f.source
  { t with span := if f.target = s.span.me then x else x.forward (port == .up) g }

end Sys2Proof
end

