-- ==== Sys2Proof/Certificates/Slice0/Obligations.lean ====
section
/-! DEFINITION. The statements for the provers. -/
open Sys2Proof Sys2Proof.Machine

/-- One step of a drive whose queue has a command at its front is that command's effect on the drive with the queue's
rest. -/
def Obligations.StepRunsFrontCommand : Prop :=
  ∀ (c : Instr) (rest : List Instr) (s : State),
    Sys2Proof.Machine.step { s with pending := c :: rest } = Sys2Proof.Machine.exec c { s with pending := rest }

/-- On an empty queue one tick of R8 passes, and wall time advances by 8 µs (R170) where it owes nothing; the ring and the fuses stand
where nothing waits there. That the model lets a tick pass there is its own choice (assumption log 1). -/
def Obligations.EmptyQueuePassesOneTick : Prop :=
  ∀ s : State, s.pending = [] → s.power.rails = .on →
    ∃ t, Sys2Proof.Machine.step s = .next t ∧ t.tick = s.tick + 1 ∧
      (s.ledger.stall = 0 → s.ledger.slewing = false → t.ledger.wall = (s.ledger.wall + 8) % 2 ^ 63) ∧
      t.pending = [] ∧ t.portA = s.portA ∧ t.portB = s.portB ∧ t.media.words = s.media.words ∧
      (s.span.tx = [] → t.span = { s.span with sentP := s.span.sentP - 25000, sentS := s.span.sentS - 25000 }) ∧
      (s.secure.intent = none → s.secure.lcHeld = none → t.secure = s.secure) ∧
      t.update = s.update ∧ t.awl = s.awl ∧ t.descs = s.descs ∧ t.spaces = s.spaces

/-- Whatever command is at the front of the queue, and on an empty queue, a step keeps Safety.Inv: word memory and counters
stay in canonical form, no counter passes 2 ^ 48 - 1 (R23), and the drive keeps its 32 tenant ids. -/
def Obligations.StepKeepsInv : Prop :=
  ∀ s t : State, Safety.Inv s → Sys2Proof.Machine.step s = .next t → Safety.Inv t

/-- The state right after reset meets the invariant. -/
def Obligations.ResetIsSound : Prop := Safety.Inv State.reset

/-- No command changes the queue of waiting commands, nor what the fuses fix (Table 12.9), nor the number of tenant ids. -/
def Obligations.CommandsKeepQueueAndIdentity : Prop :=
  ∀ (c : Instr) (s t : State), Sys2Proof.Machine.exec c s = .next t →
    t.pending = s.pending ∧ t.ident = s.ident ∧ t.tenants.length = s.tenants.length

/-- The reset values that the register tables give. -/
def Obligations.ResetValues : Prop :=
  (∀ p, (State.reset.port p).addrs.tkxPort = 7310 ∧ (State.reset.port p).txMtu = 9216 ∧ (State.reset.port p).lpiHold = 4 ∧
    (State.reset.port p).addrs.rawEn = false) ∧
  State.reset.cinch.preemptEn = true ∧ State.reset.cinch.margin = 65536 ∧ State.reset.cinch.starveTicks = 250 ∧
  State.reset.cinch.wSpan = 256 ∧ State.reset.cinch.wScrub = 64 ∧ State.reset.cinch.wUpdate = 32 ∧
  State.reset.boot.phase = 1 ∧ State.reset.boot.rtype = 3 ∧ State.reset.events.en = 0xFF#8 ∧ State.reset.events.pend = 0#8 ∧
  State.reset.span.state = .none ∧ State.reset.power.thrStart = 70 ∧ State.reset.power.vfCap = 18

/-- Clause 73 resolves 25GBASE-KR with RS-FEC (R237), from the base page latched when negotiation began (R236, 6.2.1); the link comes
up (R238, R239) with the equalisation of its training, which is free (R240); negotiation that has not brought the link up in 125,000
ticks starts again (R238). -/
def Obligations.LinkComesUp : Prop :=
  ∀ (s : State) (p : Port),
    (∀ x : Partner, (s.port p).anStart.isSome = true → (s.port p).up = false → (s.port p).page.kr25 = true →
      x.kr25 = true → x.noFec = false → ((s.port p).page.f2 = true ∨ x.f2 = true) →
      exec (.autoNegotiationComplete p x) s = .next (s.modPort p (fun q => { q with
        nullPages := x.np, an := some { speed := 2, fec := 2, eee := x.eee && q.page.eee } }))) ∧
    (∀ a : AnResult, (s.port p).an = some a → (s.port p).up = false → (s.port p).ctl 0 = true →
      exec (.linkUp p) s = .next (((s.modPort p (fun q => { q with
        up := true, linkEvt := q.linkEvt ||| 2#4, anStart := none, idleSince := s.tick, lldpDue := true })).trainLane
          (portNo p)).raise 0x8002 (portNo p) a.speed 0)) ∧
    (∀ t : Nat, (s.port p).anStart = some t → (s.port p).up = false → t + 125000 ≤ s.tick → (s.port p).ctl 0 = true →
      exec (.linkUpTimeout p) s = .next (s.modPort p (fun q => { q with
        anStart := some s.tick, an := none, nullPages := false, withdrawn := false, fallback := false
        page := {
          kr25 := (q.ctrl.toNat / 2) % 4 != 2, kr25s := (q.ctrl.toNat / 2) % 4 != 2, kr10 := (q.ctrl.toNat / 2) % 4 != 1
          f0 := true, f1 := q.ctl 4, f2 := !q.ctl 3, f3 := q.ctl 3, eee := q.ctl 5 } })))

/-- The link goes down (R239), with the frames that it cuts counted (6.2.1), and training that fails counts as a fall (R239) that cuts
none. Whether a written AN_RESTART cuts a frame is the model's free choice (assumption log 136). -/
def Obligations.LinkFalls : Prop :=
  ∀ (s : State) (p : Port),
    let fallen (s : State) : State := ((s.modPort p (fun q => { q.negotiate s.tick false with
      up := false, linkEvt := q.linkEvt ||| 1#4, txLpi := false, rxLpi := false, lpiOk := false })).bump
        (portBase p + 0x1C0)).raise 0x8001 (portNo p) 0 0
    let cut (rxCut txCut : Bool) (s : State) : State :=
      let s1 := if rxCut then s.bump (portBase p + 0x108) else s
      if txCut then s1.bump (portBase p + 0x190) else s1
    ((s.port p).up = true →
      (∀ rxCut txCut : Bool, exec (.linkDown p rxCut txCut) s = .next (fallen (cut rxCut txCut s))) ∧
      (∃ rxCut txCut : Bool, exec (.anRestart p) s =
        .next (fallen (cut rxCut txCut { s with free := s.free + 1 })))) ∧
    (∀ (rxCut txCut : Bool) (t : Nat) (a : AnResult), (s.port p).up = false → (s.port p).anStart = some t →
      (s.port p).an = some a → exec (.linkDown p rxCut txCut) s = .next (fallen s))

/-- Transmit low-power idle (R246) and the partner's (R243). -/
def Obligations.LowPowerIdle : Prop :=
  ∀ (s : State) (p : Port),
    ((s.port p).lpiAllowed s.tick = true → (s.port p).txLpi = false → (s.port p).short = [] → (s.port p).bulkFirst = [] →
      (s.port p).bulk = [] → (s.port p).idleSince + (s.port p).lpiHold < s.tick →
      exec (.transmitLpiEnter p) s =
        .next ((s.modPort p (fun q => { q with txLpi := true })).bump (portBase p + 0x1A0))) ∧
    (∀ a : AnResult, (s.port p).up = true → (s.port p).an = some a → a.eee = true → (s.port p).rxLpi = false →
      exec (.receiveLpiEnter p) s =
        .next ((s.modPort p (fun q => { q with rxLpi := true })).bump (portBase p + 0x1A8))) ∧
    exec (.receiveLpiExit p) s = .next (s.modPort p (fun q => { q with rxLpi := false }))

/-- The LLDP agent (R241, R242): what it takes, when it sends, and the partner's TLV at the end of its time to live. -/
def Obligations.LldpAgent : Prop :=
  ∀ (s : State) (p : Port),
    (∀ (came : Nat) (b : Bytes) (rest : List (Nat × Bytes)), (s.port p).lldpIn = (came, b) :: rest →
      exec (.lldpduReceive p) s = .next (s.modPort p (fun q => { q.takeLldp s.tick came b with lldpIn := rest }))) ∧
    ((s.port p).ctl 7 = true → (s.port p).ctl 0 = true →
      ((s.port p).lldpDue = true ∨ (s.port p).lldpLast = none ∨ ∃ t, (s.port p).lldpLast = some t ∧ t + 3750000 ≤ s.tick) →
      ∃ f : OutFrame, f.kind = .lldp ∧ f.raw = s.lldpdu p ∧
        exec (.lldpduSend p) s = .next (s.modPort p (fun q =>
          { q.wake s.tick with bulk := q.bulk ++ [f], lldpLast := some s.tick, lldpDue := false }))) ∧
    (∀ e : EeeTlv, (s.port p).eee = some e → e.expiry ≤ s.tick →
      exec (.partnerEeeTlvExpire p) s =
        .next (s.modPort p (fun q => { q.wake s.tick with eee := none, lpiOk := false, lldpDue := true })))

/-- The transmitter's two queues (R256), a frame that leaves (R257, R426), and one that is discarded (R251). -/
def Obligations.TransmitterSends : Prop :=
  ∀ (s : State) (p : Port) (f : OutFrame) (q : PortState),
    ((∃ r, (s.port p).short = f :: r ∧ q = { s.port p with short := r }) ∨
      ((s.port p).short = [] ∧ ∃ r, (s.port p).bulkFirst = f :: r ∧ q = { s.port p with bulkFirst := r }) ∨
      ((s.port p).short = [] ∧ (s.port p).bulkFirst = [] ∧ ∃ r, (s.port p).bulk = f :: r ∧ q = { s.port p with bulk := r })) →
    ((s.port p).up = true → ∃ u : State, exec (.transmitFrame p) s = .next (u.frameGone f) ∧
      (u.port p).sent = f.bytes (s.macOf p) q.addrs :: q.sent ∧ (u.port p).idleSince = s.tick ∧
      u.power.actUntil = s.tick + 6250 ∧ (u.port p).short = q.short ∧ (u.port p).bulkFirst = q.bulkFirst ∧
      (u.port p).bulk = q.bulk ∧ u.descs = s.descs) ∧
    ((s.port p).up = false → exec (.transmitFrame p) s =
      .next (((s.modPort p (fun _ => q)).bump (portBase p + 0x190)).frameGone f))

/-- Table 6.2's checks in their order; a frame that fails one leaves its count alone (R253). -/
def Obligations.StepOneDropsFrames : Prop :=
  ∀ (s : State) (p : Port) (frame : Bytes) (pos dur : Nat),
    s.serving = true → (s.port p).up = true → (s.port p).ctl 0 = true →
    let admitted := (s.port p).admits (s.tick * 8000 + pos - dur)
    let counted (off : Nat) : Host.Outcome State Fault Refusal :=
      .next ((s.modPort p (fun q => q.wake s.tick)).bump (portBase p + off))
    (admitted = false → exec (.hostFrameReceive p frame pos dur) s = counted 0x120) ∧
    (admitted = true → 9216 < frame.length → exec (.hostFrameReceive p frame pos dur) s = counted 0x110) ∧
    (admitted = true → frame.length < 64 → exec (.hostFrameReceive p frame pos dur) s = counted 0x118) ∧
    (admitted = true → 64 ≤ frame.length → frame.length ≤ 9216 →
      leNat (frame.drop (frame.length - 4)) ≠ fcsOf (frame.take (frame.length - 4)) →
      exec (.hostFrameReceive p frame pos dur) s = counted 0x108)

/-- A frame that passes step 1 and the parser is decided (R90); a request that no order of Table 2.6 refuses takes a
descriptor (R270) and waits for its opcode's own command. -/
def Obligations.RequestIsTakenUp : Prop :=
  ∀ (s : State) (p : Port),
    (∀ (frame : Bytes) (pos dur : Nat) (r : Req), s.serving = true → (s.port p).up = true → (s.port p).ctl 0 = true →
      (s.port p).admits (s.tick * 8000 + pos - dur) = true → 64 ≤ frame.length → frame.length ≤ 9216 →
      let b := frame.take (frame.length - 4)
      let first := s.tick * 8000 + pos - dur
      let s1 := ((s.modPort p (fun q => q.wake s.tick)).bump (portBase p + 0x100)).bump (portBase p + 0x178)
      leNat (frame.drop (frame.length - 4)) = fcsOf b → u16 b 12 ≠ 0x88CC →
      u16 b (12 + 4 * (vlanTpids b).length) ≠ 0x8808 →
      parseFrame (s.macOf p) (((s.port p).wake s.tick).addrsAt (first / 8000)) b = .ok r →
      exec (.hostFrameReceive p frame pos dur) s = .next ((s1.modPort p (fun q => { q with
        admitted := (q.decideAt (s.tick * 8000 + pos), b.length + 4) :: q.undecided first })).decide p r
          (s.tick * 8000 + pos))) ∧
    (∀ (r : Req) (instant : Nat), r.fn < 32 → r.auth = none → s.secure.lc ≠ .scrapped → (s.tenant r.fn).state = .running →
      (s.tenant r.fn).profile.authReq = false →
      let s1 := s.meterRequest r.fn
      let sp := spaceOf r.opts
      (s1.tenant r.fn).state = .running → s1.order6to9 r = none → s1.transferOf r.fn sp r.tag = none → seg0Ok r = true →
      r.count = 1 → s1.tagInFlight r.fn sp r.tag = false → s1.bound12 r.fn r.total = none →
      s.decide p r instant = { s1 with
        nextDesc := s1.nextDesc + 1
        descs := s1.descs ++ [descOf s1.nextDesc p r sp 0 none s1.tick instant] })

/-- The window of R84: a marked number is a replay from then on, and so is every number refused before; a restart (R87)
makes 1 the first number admitted. -/
def Obligations.WindowRefusesReplays : Prop :=
  (∀ (x : Space) (e : Nat), ((x.mark e).admits e = false) ∧ x.h ≤ (x.mark e).h ∧
    (∀ n, x.admits n = false → (x.mark e).admits n = false)) ∧
  (∀ (s : State) (fn sp : Nat), s.spaces.length = 34 → (fn < 32 ∨ fn = 62 ∨ fn = 63) → sp < 8 →
    ((s.restartSpaces fn).space fn sp).admits 0 = false ∧ ((s.restartSpaces fn).space fn sp).admits 1 = true)

/-- A background write of D completes (R86). -/
def Obligations.DurableCeilingIsWritten : Prop :=
  ∀ (s : State) (fn sp d : Nat), s.spaces.length = 34 → (∀ l ∈ s.spaces, l.length = 8) → (fn < 32 ∨ fn = 62 ∨ fn = 63) →
    sp < 8 → (s.space fn sp).dNext = some d →
    ∃ t, exec (.durableCeilingWrite fn sp) s = .next t ∧ t = { s with spaces := t.spaces } ∧
      t.space fn sp = { s.space fn sp with d := d, dNext := none } ∧
      (∀ g q, (fnIndex g, q) ≠ (fnIndex fn, sp) → t.space g q = s.space g q)

/-- The segments of a transfer (R92 to R95); segments that stand undecided when it ends are refused (R91). -/
def Obligations.SegmentsContinue : Prop :=
  ∀ (s : State) (id : Nat) (d : Desc) (x : Xfer), s.desc id = some d → d.phase = .transfer x →
    (∀ g : Seg, s.segs.find? (fun g => g.id == id) = some g → g.arrival ≤ x.lastTick + 64 →
      let s1 := { s with segs := s.segs.erase g }
      let more := s1.segs.any (fun g => g.id == id)
      (segOk d x g = true → g.index + 1 ≠ g.count →
        exec (.segmentContinue id) s = .next ((s1.modPort g.port (fun p => p.enqueue s.tick
          [segReply d g .segmentTaken false])).modDesc id (fun d => { d.tookSeg g with
            phase := .transfer { next := g.index + 1, lastTick := g.arrival, pendingSeg := more }
            deadline := (hardBound d.op d.total).map (fun b => g.arrival + 65 * (d.segCount - g.index - 1) + b) }))) ∧
      (segOk d x g = true → g.index + 1 = g.count →
        exec (.segmentContinue id) s = .next ((s1.modDesc id (fun d => { d.tookSeg g with
          phase := .parsed, arrival := g.arrival, parsed := g.parsed, deadline := none })).refuseSegs d .segment)) ∧
      (segOk d x g = false →
        exec (.segmentContinue id) s = .next (((s1.modPort g.port (fun p => p.enqueue s.tick
          [segReply d g .segment true])).modDesc id (fun d => { d with phase := .closing, staging := 0 })).discardTransfer
            d .segment))) ∧
    (x.lastTick + 65 ≤ s.tick → x.pendingSeg = false →
      exec (.segmentLate id) s = .next ((s.refuse id .segmentLate (x.next - 1)).discardTransfer d .segment))

/-- An event on its way out (R459, R461, R462). -/
def Obligations.EventIsFormed : Prop :=
  ∀ (s : State) (e : Event) (rest : List Event) (p : Port) (k : Bytes) (src : Source) (at_ : Nat),
    s.events.queue = e :: rest → s.macKey 62 = some k → (s.port p).reg = some (src, at_) → (s.port p).up = true →
    (∀ q, q ≠ p → (s.port q).reg = none) →
    exec .eventForm s = .next { s.modPort p (fun q => q.enqueue s.tick [eventFrame e src k]) with
      events := ({ s.events with queue := rest }).flush s.tick s.ledger.wall }

/-- GET (R110), GET_HOLD (R48, R52) and VERIFY (R124) at a readable record of a local key. -/
def Obligations.ReadsOfACachedRecord : Prop :=
  ∀ (s : State) (id : Nat) (d : Desc) (r : Rec), Safety.LocalKey s d.fn d.key → (s.tenant d.fn).find d.key = some r →
    r.lost = .no → r.cached = true →
    (Safety.Waits s id 0x01 d →
      exec (.get id) s = .next (s.looked.answer id .done r.version [] [] r.value)) ∧
    (Safety.Waits s id 0x03 d → (s.tenant d.fn).blockingHold d.key d.arrival s.tick = none →
      s.holdsInUse d.fn id < 8192 →
      replyFits (s.port d.port).txMtu d (padOpts (tlv 0x49 (toBe 4 (s.tenant d.fn).nextHold))) [] r.value = true →
      exec (.getHold id) s = .next ((s.looked.modTenant d.fn (fun t => { t with
        holds := t.holds ++ [{ id := (s.tenant d.fn).nextHold, key := d.key, version := r.version, start := d.arrival,
                               dur := if d.bitsOf 31 0 = 0 then 1250 else d.bitsOf 31 0 }]
        nextHold := (t.nextHold + 1) % 2 ^ 32 })).answer id .done r.version
          (tlv 0x49 (toBe 4 (s.tenant d.fn).nextHold)) [] r.value)) ∧
    (∀ k : Bytes, Safety.Waits s id 0x40 d → s.macKey d.fn = some k →
      (d.param = 0#64 ∨ d.param.toNat = r.version) →
      exec (.verify id) s =
        .next (s.looked.answer id .done (if cmac k (verifyInput r) = d.value then 0 else 1) [] [] []))

/-- A read of an uncached record (R110), and its end at a step that decodes (R308) or a lost codeword (R309). -/
def Obligations.ReadsFromFlash : Prop :=
  ∀ (s : State) (id : Nat) (d : Desc) (r : Rec), (s.tenant d.fn).find d.key = some r → r.lost = .no →
    (Safety.LocalKey s d.fn d.key → Safety.Waits s id 0x01 d → r.cached = false →
      exec (.get id) s = .next (s.looked.beginRead id d.fn r (.reading false))) ∧
    (∀ (blk : BlockId) (others : List (Nat × Bytes × Nat)), s.desc id = some d → d.op = 0x01 → d.refs = 1 →
      (∀ x ∈ s.ledger.reads, x.1 ≠ id) →
      d.phase = .reading false → d.fetch = some r → s.tenants.length = 32 → d.fn < 32 → s.keySet d.key = 0 →
      (∀ n : Fin 7,
        ∃ u : State, exec (.readComplete id (.step n) blk others) s = .next (u.answer id .done r.version [] [] r.value) ∧
          u.tenant d.fn = (s.tenant d.fn).modRec d.key
            (fun y => { y with cached := y.cached || y.version == r.version }) ∧
          u.desc id = some { d with refs := 0, fetch := none } ∧ u.port d.port = s.port d.port ∧ u.ledger = s.ledger) ∧
      (∃ u : State, exec (.readComplete id .lost blk others) s = .next (u.answer id .uncorrectable 0 [] [] []) ∧
        (u.tenant d.fn).find d.key = some { r with lost := .uncorrectable, cached := false } ∧
        u.desc id = some { d with refs := 0, fetch := none } ∧ u.port d.port = s.port d.port ∧ u.ledger = s.ledger))

/-- RELEASE (R49, R112), BROWSE_OPEN (R55, R115), BROWSE_CLOSE, and the ends of holds (R48) and cursors (R57). -/
def Obligations.HoldsAndCursors : Prop :=
  ∀ (s : State) (id : Nat) (d : Desc),
    (∀ h : Hold, Safety.Waits s id 0x04 d → s.rebuilding = false → s.owns d.fn d.key = true →
      (s.tenant d.fn).holdOf (d.bitsOf 31 0) d.key d.arrival = some h →
      exec (.release id) s = .next ((s.looked.modTenant d.fn (fun t =>
        { t with holds := t.holds.filter (fun x => x.id != h.id) })).finish id 0)) ∧
    (∀ n : Nat, Safety.Waits s id 0x10 d → s.rebuilding = false → s.owns d.fn d.key = true →
      (s.tenant d.fn).freeSlot s.tick = some n →
      let t := s.tenant d.fn
      let g := ((assoc t.gens n).getD 0 + 1) % 2 ^ 24
      exec (.browseOpen id) s = .next ((s.looked.modTenant d.fn (fun _ => { t with
        cursors := t.cursors.filter (fun x => x.slot != n) ++ [
          { slot := n, gen := g, generic := d.bitsOf 0 0 == 1, start := d.key, pos := none, used := d.arrival,
            lease := t.profile.leaseTicks }]
        gens := insertSorted n g t.gens })).finish id (n + 256 * g))) ∧
    (∀ c : Cursor, Safety.Waits s id 0x13 d → (s.tenant d.fn).cursor (d.bitsOf 31 0) d.arrival = some c →
      exec (.browseClose id) s = .next ((s.modTenant d.fn (fun t =>
        { t with cursors := t.cursors.filter (fun x => x.slot != c.slot) })).finish id 0)) ∧
    (∀ t hold : Nat, exec (.holdExpire t hold) s = .next (s.modTenant t (fun x =>
      { x with holds := x.holds.filter (fun h => h.id != hold || s.tick < h.start + h.dur) }))) ∧
    (∀ t slot : Nat, exec (.cursorExpire t slot) s = .next (s.modTenant t (fun x =>
      { x with cursors := x.cursors.filter (fun c => c.slot != slot || s.tick < c.used + c.lease) })))

/-- A browse step (R55, R56, R57, R116) and GET_GENERIC (R59, R110) at a readable record in the cache. -/
def Obligations.BrowseAndGenericReads : Prop :=
  ∀ (s : State) (id : Nat) (d : Desc) (k : Bytes) (r : Rec), r.lost = .no → r.cached = true → s.rebuilding = false →
    r.key = k → s.keySet k = 0 →
    (∀ (c c1 : Cursor) (fwd : Bool), Safety.Waits s id (if fwd then 0x11 else 0x12) d →
      (s.tenant d.fn).cursor (d.bitsOf 31 0) d.arrival = some c → s.owns d.fn (c.pos.getD c.start) = true →
      s.keySet (c.pos.getD c.start) = 0 →
      let s1 := s.looked.modTenant d.fn
        (·.modCursor c.slot (·.restart d.arrival (s.tenant d.fn).profile.leaseTicks))
      (s1.tenant d.fn).cursor (d.bitsOf 31 0) d.arrival = some c1 →
      s1.browseStep d.fn c1 fwd = .at k → (s1.tenant d.fn).find k = some r →
      replyFits (s.port d.port).txMtu d [] k r.value = true →
      exec (if fwd then .browseNext id else .browsePrev id) s =
        .next ((s1.modTenant d.fn (·.modCursor c1.slot (fun c => { c with pos := some k }))).answer id .done r.version []
          k r.value)) ∧
    (Safety.Waits s id 0x02 d → d.bitsOf 0 0 = 0 → s.owns d.fn d.key = true → s.keySet d.key = 0 →
      s.prefixLeast d.fn d.key = some k → (s.tenant d.fn).find k = some r →
      exec (.getGeneric id) s = .next (s.looked.answer id .done r.version [] k r.value))

/-- Table 3.4's writes at their gate (R38, R49, R51, R109, R300), and their place in the order (R43). -/
def Obligations.WritesAreAdmitted : Prop :=
  ∀ (s : State) (id : Nat) (d : Desc) (hold : Option Hold) (late : Bool), Safety.LocalKey s d.fn d.key →
    s.keyShort d.fn 0 = none → s.thermalOn = false → s.holdCheck d = .ok hold →
    s.ledger.used + s.reserved + (s.writeEntry d hold).room ≤ commitArea →
    let s1 := match hold with
      | some h => s.looked.modTenant d.fn (fun t => { t with holds := t.holds.filter (fun x => x.id != h.id) })
      | none => s.looked
    let e := s.writeEntry d hold
    let s2 := s1.setPhase id .ordered
    let s3 := if late || !e.unread.isEmpty then s2.accept id .ordered else s2
    let t := (s3.fetchUnread id e).enqueueLocal e
    (Safety.Waits s id 0x08 d → exec (.put id late) s = .next t) ∧
    (Safety.Waits s id 0x09 d → exec (.putIfVersion id late) s = .next t) ∧
    (Safety.Waits s id 0x0A d → exec (.rewrite id late) s = .next t) ∧
    (Safety.Waits s id 0x0B d → exec (.patch id late) s = .next t) ∧
    (Safety.Waits s id 0x0C d → exec (.delete id late) s = .next t)

/-- The commit of the front entry (R42, R298) and the end of a record's destage (R299). -/
def Obligations.RecordsCommitAndDestage : Prop :=
  (∀ (s : State) (e : Entry) (rest : List Entry) (fx : Effects), s.power.rails = .on → s.ledger.order = e :: rest →
    e.unread = [] → (e.effects = some fx ∨ (e.effects = none ∧ e.kind = .write ∧ s.decideWrite e = .ok fx)) →
    exec .journalRecordComplete s = .next (s.commitEntry e s.ledger.digestCount fx).watchJournal.popOrder) ∧
  (∀ (s : State) (r : JRec) (rest : List JRec), s.ledger.journal = r :: rest → s.dark = false →
    s.power.programLimit ≠ 0 → s.destaging r.number = false →
    exec .destageComplete s = .next ({ s with
      ledger := { s.ledger with journal := rest, freePtr := (r.offset + r.size) % commitArea }
      media := { s.media with life := s.media.life.modify 1 (· + r.size) } }).watchJournal)

/-- What a commit makes visible (R32, R42, R45): the record under the next sequence number (R33), and nothing else. -/
def Obligations.CommittedWriteIsTheRecord : Prop :=
  ∀ (s : State) (e : Entry) (v : Bytes), s.power.rails = .on → s.ledger.order = [e] → e.unread = [] → e.effects = none →
    e.kind = .write → e.set = 0 → e.tenant < 32 → s.tenants.length = 32 → (s.tenant e.tenant).coll = none →
    s.decideWrite e = .ok { writes := [(e.key, some v)], result := [], legs := [] } →
    ∃ t, exec .journalRecordComplete s = .next t ∧
      (∃ r, (t.tenant e.tenant).find e.key = some r ∧ r =
        { s.compressed e.key v s.ledger.nextSeq with gen := r.gen, nonce := r.nonce, sealed := r.sealed }) ∧
      (∀ k, k ≠ e.key → (t.tenant e.tenant).find k = (s.tenant e.tenant).find k) ∧
      t.ledger.nextSeq = s.ledger.nextSeq + 1 ∧ t.ledger.order = []

/-- Table 4.4's moves, arithmetic and CMP, in the forms that do not fault. -/
def Obligations.TallyArithmetic : Prop :=
  ∀ (s : State) (t : Tree) (f : Frame) (rest : List Frame) (a b : Fin 16) (imm : BitVec 16),
    let set (v : Int) : Host.Outcome State Fault Refusal :=
      .next (Safety.ran s t ({ f with regs := f.regs.set a.val v, pc := f.pc + 1 } :: rest))
    (Safety.Runs s (.ldi a imm) t f rest → exec (.ldi a imm) s = set imm.toInt) ∧
    (∀ v, Safety.Runs s (.ldc a imm) t f rest → f.consts[imm.toNat]? = some v → exec (.ldc a imm) s = set v) ∧
    (Safety.Runs s (.mov a b) t f rest → exec (.mov a b) s = set (f.reg b)) ∧
    (Safety.Runs s (.add a b) t f rest → fitsSigned 128 (f.reg a + f.reg b) = true →
      exec (.add a b) s = set (f.reg a + f.reg b)) ∧
    (Safety.Runs s (.sub a b) t f rest → fitsSigned 128 (f.reg a - f.reg b) = true →
      exec (.sub a b) s = set (f.reg a - f.reg b)) ∧
    (Safety.Runs s (.mul a b) t f rest → fitsSigned 128 (f.reg a * f.reg b) = true →
      exec (.mul a b) s = set (f.reg a * f.reg b)) ∧
    (Safety.Runs s (.div a b) t f rest → f.reg b ≠ 0 → fitsSigned 128 ((f.reg a).tdiv (f.reg b)) = true →
      exec (.div a b) s = set ((f.reg a).tdiv (f.reg b))) ∧
    (Safety.Runs s (.rem a b) t f rest → f.reg b ≠ 0 → exec (.rem a b) s = set ((f.reg a).tmod (f.reg b))) ∧
    (Safety.Runs s (.muldiv a b imm) t f rest → f.reg (divisorReg imm) ≠ 0 →
      fitsSigned 128 (divHalfEven (f.reg a * f.reg b) (f.reg (divisorReg imm))) = true →
      exec (.muldiv a b imm) s = set (divHalfEven (f.reg a * f.reg b) (f.reg (divisorReg imm)))) ∧
    (Safety.Runs s (.neg a) t f rest → fitsSigned 128 (-(f.reg a)) = true → exec (.neg a) s = set (-(f.reg a))) ∧
    (Safety.Runs s (.cmp a b) t f rest → exec (.cmp a b) s = .next (Safety.ran s t
      ({ f with flag := if f.reg a < f.reg b then .lt else if f.reg a = f.reg b then .eq else .gt, pc := f.pc + 1 } :: rest)))

/-- Faults of arithmetic (Table 4.6), placed as R166 says. -/
def Obligations.TallyFaults : Prop :=
  ∀ (s : State) (t : Tree) (f : Frame) (rest : List Frame) (a b : Fin 16) (imm : BitVec 16),
    let faulted (code : Nat) : Host.Outcome State Fault Refusal :=
      .next { s with ledger := { s.ledger with tree := some { t with
        stepsLeft := t.stepsLeft - 1, ended := some (.fault code (4 * f.pc) (rest.length + 1)) } } }
    (Safety.Runs s (.add a b) t f rest → fitsSigned 128 (f.reg a + f.reg b) = false → exec (.add a b) s = faulted 2) ∧
    (Safety.Runs s (.sub a b) t f rest → fitsSigned 128 (f.reg a - f.reg b) = false → exec (.sub a b) s = faulted 2) ∧
    (Safety.Runs s (.mul a b) t f rest → fitsSigned 128 (f.reg a * f.reg b) = false → exec (.mul a b) s = faulted 2) ∧
    (Safety.Runs s (.neg a) t f rest → fitsSigned 128 (-(f.reg a)) = false → exec (.neg a) s = faulted 2) ∧
    (Safety.Runs s (.div a b) t f rest → f.reg b = 0 → exec (.div a b) s = faulted 3) ∧
    (Safety.Runs s (.rem a b) t f rest → f.reg b = 0 → exec (.rem a b) s = faulted 3) ∧
    (Safety.Runs s (.muldiv a b imm) t f rest → f.reg (divisorReg imm) = 0 → exec (.muldiv a b imm) s = faulted 3) ∧
    (Safety.Runs s (.ldc a imm) t f rest → f.consts[imm.toNat]? = none → exec (.ldc a imm) s = faulted 5)

/-- Table 4.4's buffer instructions, in the forms that do not fault (R157). -/
def Obligations.TallyBuffers : Prop :=
  ∀ (s : State) (t : Tree) (f : Frame) (rest : List Frame) (a b : Fin 16) (imm : BitVec 16),
    let w := widthOf imm
    let i := bufFirst imm
    let n := (f.reg b).toNat
    let set (v : Int) : Host.Outcome State Fault Refusal :=
      .next (Safety.ran s t ({ f with regs := f.regs.set a.val v, pc := f.pc + 1 } :: rest))
    let store (x : Bytes) : Host.Outcome State Fault Refusal :=
      let old := padTo (max (f.buf i).length (n + x.length)) (f.buf i)
      .next (Safety.ran s t ({ f with
        bufs := f.bufs.set i (old.take n ++ x ++ old.drop (n + x.length)), pc := f.pc + 1 } :: rest))
    0 ≤ f.reg b → 1 ≤ w →
    (Safety.Runs s (.ldbe a b imm) t f rest → w ≤ 16 → n + w ≤ (f.buf i).length →
      exec (.ldbe a b imm) s = set (toSigned (8 * w) (beNat (slice (f.buf i) n w)))) ∧
    (∀ v, Safety.Runs s (.ldpd a b imm) t f rest → w ≤ 16 → n + w ≤ (f.buf i).length →
      packedValue (slice (f.buf i) n w) = .ok v → exec (.ldpd a b imm) s = set v) ∧
    (∀ v, Safety.Runs s (.ldzd a b imm) t f rest → w ≤ 31 → n + w ≤ (f.buf i).length →
      zonedValue (slice (f.buf i) n w) = .ok v → exec (.ldzd a b imm) s = set v) ∧
    (Safety.Runs s (.stbe a b imm) t f rest → w ≤ 16 → fitsSigned (8 * w) (f.reg a) = true →
      n + (toBe w (ofSigned (8 * w) (f.reg a))).length ≤ 4096 →
      exec (.stbe a b imm) s = store (toBe w (ofSigned (8 * w) (f.reg a)))) ∧
    (∀ x, Safety.Runs s (.stpd a b imm) t f rest → w ≤ 16 → toPacked w (f.reg a) = .ok x → n + x.length ≤ 4096 →
      exec (.stpd a b imm) s = store x) ∧
    (∀ x, Safety.Runs s (.stzd a b imm) t f rest → w ≤ 31 → toZoned w (f.reg a) = .ok x → n + x.length ≤ 4096 →
      exec (.stzd a b imm) s = store x) ∧
    (Safety.Runs s (.len a imm) t f rest → exec (.len a imm) s = set (f.buf i).length) ∧
    (Safety.Runs s (.setlen a imm) t f rest → 0 ≤ f.reg a → f.reg a ≤ 4096 →
      exec (.setlen a imm) s = .next (Safety.ran s t ({ f with
        bufs := f.bufs.set i (padTo (f.reg a).toNat (f.buf i)), pc := f.pc + 1 } :: rest)))

/-- READ, WRITE, DEL, LEG (R158, R159, R161, R165) and CLK (R162), in the forms that neither fault nor refuse. -/
def Obligations.TallyRecords : Prop :=
  ∀ (s : State) (t : Tree) (f : Frame) (rest : List Frame) (a b : Fin 16) (imm : BitVec 16) (key : Bytes),
    let next (t : Tree) (f : Frame) : Host.Outcome State Fault Refusal :=
      .next (Safety.ran s t ({ f with pc := f.pc + 1 } :: rest))
    let named := { t with names := addKey t.names key }
    f.buf (bufFirst imm) = key → 1 ≤ key.length → key.length ≤ 255 → s.treeKeyFault t key = none →
    (∀ v ver, Safety.Runs s (.read a imm) t f rest → (addKey t.keysRead key).length ≤ 64 →
      s.treeView t key = .ok (some (v, ver)) → v.length ≤ 4096 →
      exec (.read a imm) s = next { named with keysRead := addKey t.keysRead key }
        { f with regs := f.regs.set a.val ver, bufs := f.bufs.set (bufSecond imm) v }) ∧
    (s.treeHeld t key = none → (addKey (t.writes.map (·.1)).eraseDups key).length ≤ 16 →
      (f.reg a = -1 ∨ f.reg a = s.treeVersion t key) →
      (Safety.Runs s (.write a imm) t f rest → exec (.write a imm) s =
        next { named with writes := t.writes ++ [(key, some (f.buf (bufSecond imm)))] } f) ∧
      (Safety.Runs s (.del a imm) t f rest → exec (.del a imm) s =
        next { named with writes := t.writes ++ [(key, none)] } f)) ∧
    (Safety.Runs s (.leg a b imm) t f rest → s.treeHeld t key = none → currencyOk (toBe 3 (ofSigned 24 (f.reg b))) = true →
      t.legs.length < 16 → exec (.leg a b imm) s =
        next { named with legs := t.legs ++ [
          { currency := toBe 3 (ofSigned 24 (f.reg b)), amount := f.reg a, key := key }] } f) ∧
    (∀ n v, (n, v) ∈ [(0, t.tick), (1, t.wall), (2, t.day), (3, t.seq)] → imm.toNat = n →
      Safety.Runs s (.clk a imm) t f rest → exec (.clk a imm) s = next t { f with regs := f.regs.set a.val v })

/-- BR, CALL, HALT, FAIL and LONG (R155, R160, R163, R164, R166). -/
def Obligations.TallyControl : Prop :=
  ∀ (s : State) (t : Tree) (f : Frame) (rest : List Frame) (a : Fin 16) (imm : BitVec 16),
    let ended (e : TreeEnd) (r : Bytes) : Host.Outcome State Fault Refusal :=
      .next { s with ledger := { s.ledger with tree := some { t with
        stepsLeft := t.stepsLeft - 1, ended := some e, result := r } } }
    (Safety.Runs s (.br a imm) t f rest → conditionHolds a.val f.flag = some true → 0 ≤ (f.pc : Int) + imm.toInt →
      4 * ((f.pc : Int) + imm.toInt) < f.code.length →
      exec (.br a imm) s = .next (Safety.ran s t ({ f with pc := ((f.pc : Int) + imm.toInt).toNat } :: rest))) ∧
    (Safety.Runs s (.br a imm) t f rest → conditionHolds a.val f.flag = some false →
      exec (.br a imm) s = .next (Safety.ran s t ({ f with pc := f.pc + 1 } :: rest))) ∧
    (∀ r : Rec, Safety.Runs s (.call imm) t f rest → 1 ≤ (f.buf (bufFirst imm)).length →
      (f.buf (bufFirst imm)).length ≤ 255 → s.treeKeyFault t (f.buf (bufFirst imm)) = none →
      (s.tenant t.tenant).find (f.buf (bufFirst imm)) = some r → r.lost = .no → imageOk r.value = true → rest.length < 3 →
      exec (.call imm) s = .next (Safety.ran s { t with
          names := addKey t.names (f.buf (bufFirst imm)), called := addKey t.called (f.buf (bufFirst imm)) }
        (imageFrame r.value (f.buf (bufSecond imm)) (bufThird imm) :: { f with pc := f.pc + 1 } :: rest))) ∧
    (Safety.Runs s .halt t f rest → rest = [] → exec .halt s = ended .halted (f.buf 3)) ∧
    (∀ (g : Frame) (more : List Frame), Safety.Runs s .halt t f rest → rest = g :: more →
      exec .halt s = .next (Safety.ran s t ({ g with bufs := g.bufs.set f.resultBuf (f.buf 3) } :: more))) ∧
    (Safety.Runs s (.fail imm) t f rest →
      exec (.fail imm) s = ended (.fault (0x8000 + imm.toNat % 256) (4 * f.pc) (rest.length + 1)) t.result) ∧
    (Safety.Runs s (.long imm) t f rest → imm.toNat % 256 ∈ [0x30, 0x31, 0x60, 0x61, 0x62] →
      exec (.long imm) s = ended (.busySelf (imm.toNat % 256) (4 * f.pc) (rest.length + 1)) t.result)

/-- What stage 3 (R150) makes of each touched account (R146). -/
def Obligations.PostingMovesBalances : Prop :=
  ∀ (view : Bytes → Except Lost (Option Bytes)) (seq : Nat) (legs : List Leg) (accs : List (Bytes × Bytes)),
    stage3 view seq legs = .ok accs → ∀ a ∈ accs, ∃ v : Bytes, view a.1 = .ok (some v) ∧ accountOk v = true ∧
      accountClosed v = false ∧
      (let net := (legs.map (fun l => if l.key = a.1 then l.amount else 0)).sum
       balanceOf a.2 = balanceOf v + net ∧ fitsSigned 128 (balanceOf v + net) = true ∧
         (floorOn v = true → net < 0 → accountFloor v ≤ balanceOf a.2)) ∧
      a.2.take 8 = v.take 8 ∧ slice a.2 8 8 = toBe 8 seq ∧ a.2.drop 32 = v.drop 32

/-- The sum of the touched balances of each currency is what it was (R118, R148, R150, R146). -/
def Obligations.PostingConservesCurrency : Prop :=
  ∀ (view : Bytes → Except Lost (Option Bytes)) (seq : Nat) (legs : List Leg) (accs : List (Bytes × Bytes)),
    zeroSumFault legs = none → stage3 view seq legs = .ok accs → ∀ cur : Bytes,
      (accs.map (fun a => if slice a.2 1 3 = cur then balanceOf a.2 else 0)).sum =
      (accs.map (fun a => match view a.1 with
        | .ok (some v) => if slice v 1 3 = cur then balanceOf v else 0
        | _ => 0)).sum

/-- Admission of a POST (R117, R147 to R149, R167) and a POST_PROGRAM (R119, R167 to R169) on a local range. -/
def Obligations.PostingsAreAdmitted : Prop :=
  ∀ (s : State) (id : Nat) (d : Desc) (late : Bool), s.rebuilding = false →
    let s1 := s.looked
    let admitted (e : Entry) : State := ((s1.useHolds d.fn d.holdIds).enterOrder id e late).notePeak
    (∀ legs : List Leg, Safety.Waits s id 0x20 d → s1.postStage1 d = .ok (legs, 0) → s1.keyShort d.fn 0 = none →
      s1.thermalOn = false → s1.postStage2 d legs = none →
      let keys := (legs.map (·.key)).eraseDups
      let room := s1.recordBytes (keys.map (fun k => (k, ((s1.tenant d.fn).find k).map (·.value))))
      s1.engineRoom 0 64 = none → s1.ledger.used + s1.reserved + room ≤ commitArea →
      exec (.post id late) s = .next (admitted
        { desc := some id, kind := .post, set := 0, tenant := d.fn, op := 0x20, param := d.param, key := [],
          value := d.value, expect := none, heldVer := none, heldBy := [], heldKeys := [],
          readSet := keys.map Config.fingerprint, tick := s.tick, wall := s.ledger.wall,
          unread := s1.uncached d.fn keys, effects := none, room := room, steps := 64, stamp := d.stamp })) ∧
    (∀ r : Rec, Safety.Waits s id 0x21 d → s1.writeGate d.fn d.key 0 = none → s1.keySet d.key = 0 →
      (s1.tenant d.fn).find d.key = some r → r.lost = .no →
      let e := s1.programEntry d r
      let t := s1.runEntry e
      let room := s1.recordBytes (match s1.treeEffects e t with
        | .ok fx => fx.writes
        | .error _ => [])
      s1.programHolds d e t = none → s1.engineRoom 0 e.cost = none → s1.ledger.used + s1.reserved + room ≤ commitArea →
      exec (.postProgram id late) s = .next (admitted { e with
        readSet := t.readKeys.map Config.fingerprint
        unread := s1.uncached d.fn (d.key :: t.called ++ t.readKeys)
        room := room }))

/-- Stage 3 (R147, R150) and the tree run (R154 to R166) for the front entry. -/
def Obligations.PostingsRun : Prop :=
  ∀ (s : State) (e : Entry) (rest : List Entry), s.ledger.order = e :: rest → e.unread = [] → e.effects = none →
    let waits (s : State) (fx : Effects) : State :=
      { s with ledger := { s.ledger with order := { e with effects := some fx } :: rest } }
    (e.kind = .post →
      (∀ fx, s.decidePost e = .ok fx → fx.writes ≠ [] → exec .postingStage3 s = .next (waits s fx)) ∧
      (∀ st p key, s.decidePost e = .error (st, p, key) →
        exec .postingStage3 s = .next ((((s.acceptFirst e).bump 0x000C0028).refuseEntry e s.ledger.digestCount
          st p key).popOrder))) ∧
    (∀ t : Tree, e.kind = .program → s.engineTree = some t →
      let s1 := { s with ledger := { s.ledger with tree := none } }
      let t1 := s.runTree (t.stepsLeft + 1) t
      (s.treeMissing e t1 ≠ [] → exec .programTreeRun s = .next (s.fetchMore e (s.treeMissing e t1))) ∧
      (∀ fx, s.treeMissing e t1 = [] → s.treeEffects e t1 = .ok fx → fx.writes ≠ [] →
        exec .programTreeRun s = .next (waits s1 fx)) ∧
      (∀ fx, s.treeMissing e t1 = [] → s.treeEffects e t1 = .ok fx → fx.writes = [] →
        exec .programTreeRun s = .next (s1.commitEntry e s.ledger.digestCount fx).popOrder) ∧
      (∀ st p key, s.treeMissing e t1 = [] → s.treeEffects e t1 = .error (st, p, key) →
        exec .programTreeRun s = .next (((s1.acceptFirst e).countRefusal .program (some t1) st).refuseEntry e s.ledger.digestCount
          st p key).popOrder))

/-- CLOSE_DAY at its place in the order (R120, R176, R177), in the drive's own order. -/
def Obligations.DayCloses : Prop :=
  ∀ (s : State) (id : Nat) (d : Desc), Safety.Waits s id 0x22 d → s.span.state = .none → s.ledger.order = [] →
    s.tenants.length = 32 → closeTarget d < 32 → (s.tenant (closeTarget d)).state ≠ .absent →
    (62 ≤ d.fn ∨ (s.tenant (closeTarget d)).profile.closeOk = true) → (s.tenantSets (closeTarget d)).any s.span.fencedAt = false →
    (s.closeEntry d (closeTarget d)).set = 0 → (s.tenant (closeTarget d)).day = d.param.toNat % 2 ^ 32 →
    (s.tenant (closeTarget d)).day + 1 < 2 ^ 32 →
    ∃ t, exec (.closeDay id) s = .next t ∧
      t.tenant (closeTarget d) = { s.tenant (closeTarget d) with
        day := (s.tenant (closeTarget d)).day + 1, closeTime := s.ledger.wall, closeShown := s.ledger.wall,
        closeTick := s.tick, closeSeq := s.ledger.nextSeq - 1, closedOnce := true } ∧
      (∀ n, n ≠ closeTarget d → t.tenant n = s.tenant n) ∧ t.ledger.order = []

/-- SET_TIME outside a span (R125, R170 to R172) and the end of a slew (R171). -/
def Obligations.TimeIsSet : Prop :=
  ∀ (s : State) (id : Nat) (d : Desc),
    (Safety.Waits s id 0x48 d → s.span.state = .none →
      (s.lastClose ≤ bits d.param.toNat 62 0 ∨ bit d.param.toNat 63 = true) →
      let x := bits d.param.toNat 62 0
      let w := s.ledger.wall
      let l := { s.ledger with stall := 0, timeSet := true, wallJournalAt := s.tick }
      (w ≤ x → exec (.setTime id) s =
        .next ({ s with ledger := { l with wall := x, debt := 0, slewing := false, wallJournal := x } }.finish id w)) ∧
      (x < w → w - x ≤ 2000000 → exec (.setTime id) s =
        .next ({ s with ledger := { l with debt := w - x, slewing := true, wallJournal := w } }.finish id w)) ∧
      (x < w → 2000000 < w - x → exec (.setTime id) s = .next ({ s with
        ledger := { l with wall := x, debt := 0, slewing := false, wallJournal := x }
        tenants := s.tenants.map (fun t : Tenant => if t.state = TenantState.absent then t else
          { t with period := { t.period with stepBack := true } }) }.finish id w))) ∧
    (s.ledger.slewing = true → s.ledger.debt = 0 →
      exec .slewEnd s = .next { s with ledger := { s.ledger with slewing := false } })

/-- LCK_TDAY_SET (R175), the close of a metering period (R180, R182), and the journalled clocks (R173, R440). -/
def Obligations.ClockRegistersAndPeriods : Prop :=
  ∀ (s : State) (t : Nat),
    (∀ day : Word, (s.tenant t).state ≠ .absent → (s.tenant t).recs = [] → day ≠ 0#32 →
      exec (.lckTdaySet t day) s = .next (s.modTenant t (fun x => { x with day := day.toNat }))) ∧
    ((s.tenant t).state ≠ .absent → (s.tenant t).period.closeTick ≤ s.tick →
      exec (.meteringPeriodClose t) s = .next (s.modTenant t (fun x => { x with
        closed := (x.period :: x.closed).take 64
        period := Period.opened (x.period.number + 1) x.meterLen s.tick s.ledger.wall }))) ∧
    (s.ledger.wallJournalAt + 125000 ≤ s.tick → exec .wallTimeJournal s =
      .next { s with ledger := { s.ledger with wallJournal := s.ledger.wall, wallJournalAt := s.tick } }) ∧
    exec .tickCountJournal s = .next { s with ledger := { s.ledger with tickJournal := s.tick } }

/-- QUERY's four reports (R126, R127). -/
def Obligations.QueryReports : Prop :=
  ∀ (s : State) (id : Nat) (d : Desc), Safety.Waits s id 0x50 d →
    let t := if d.fn ≥ 62 then d.bitsOf 13 8 else d.fn
    (s.tenant t).state ≠ .absent →
    (d.bitsOf 7 0 = 0 → exec (.query id) s = .next (s.answer id .done 0 [] []
      (toBe 8 (s.tenant t).logical ++ toBe 8 (s.tenant t).profile.quota ++ toBe 8 (s.tenant t).recs.length ++
        toBe 2 ((s.tenant t).holds.filter (·.validAt s.tick)).length ++
        toBe 2 ((s.tenant t).cursors.filter (·.validAt s.tick)).length ++ toBe 2 (s.tagsOf t) ++ [0#8, 0#8]))) ∧
    (∀ p : Period, d.bitsOf 7 0 = 1 → (s.tenant t).periodAt (d.bitsOf 23 16) = some p →
      exec (.query id) s = .next ({ s with free := s.free + 4 }.answer id .done 0 [] []
        (meterReport p (d.bitsOf 23 16 == 0) s.free))) ∧
    (d.bitsOf 7 0 = 2 → exec (.query id) s = .next (s.answer id .done 0 [] []
      (toBe 8 s.tick ++ toBe 8 s.ledger.wall ++ toBe 4 (s.tenant t).day ++ toBe 4 0))) ∧
    (d.bitsOf 7 0 = 3 → s.span.counts = false → exec (.query id) s = .next (s.answer id .done 0 [] []
      ([BitVec.ofNat 8 (byteAt s.update.active.manifest 8), BitVec.ofNat 8 (byteAt s.update.active.manifest 9), 0#8, 0#8] ++
        toBe 4 0xFFFFFFFF)))

/-- SCAN and SCAN_COUNT (R121, R349, R350), their time limit (R122), loads (R350, R351), persistence (R352) and parity
(R360, R361). -/
def Obligations.ScansAndPatterns : Prop :=
  ∀ (s : State) (id : Nat) (d : Desc),
    (∀ count : Bool, Safety.Waits s id (if count then 0x31 else 0x30) d → s.rebuilding = false →
      s.looked.scanGate d = none → d.value = [] → d.bitsOf 1 0 ≠ 2 →
      let n := s.looked.driveSlot d.fn (d.bitsOf 11 8)
      ((s.looked.slot n).bank (s.looked.slot n).current).isSome = true → s.looked.scanBound d.fn n false = none →
      exec (if count then .scanCount id else .scan id) s = .next (({ s.looked with awl := { s.looked.awl with
        scans := s.looked.awl.scans ++ [
          ({
            desc := id, tenant := d.fn, count := count, mode := d.bitsOf 1 0, slot := n,
            bank := some (s.looked.slot n).current, start := d.key, pos := none, limit := (d.opt 0x0B).getD 65536,
            read := 0, skipped := 0, matched := 0, began := d.first.getD s.looked.tick, floor := d.opt 0x08,
            ended := none } : Scan)] } }.accept id .scanning).scanRun id)) ∧
    (∀ c : Scan, s.scanOf id = some c → c.mode ≠ 2 → c.began + 62500 ≤ s.tick →
      exec (.scanTimeLimit id) s = .next (s.endScan c .partialLimit c.param (s.scanResume c))) ∧
    (∀ (slot who : Nat) (img : Bytes) (rest : List (Nat × Bytes)), (s.slot slot).load = (who, img) :: rest →
      s.bankBound slot (!(s.slot slot).current) = false → (∀ x : Desc, s.desc who = some x → x.arrival < s.tick) →
      (s.awl.stolen.1 = s.tick → s.awl.stolen.2 = []) →
      ∃ u : State, exec (.patternLoad slot) s = .next (u.scanRun who) ∧ u.tenants = s.tenants ∧ u.descs = s.descs ∧
        u.awl.slots = s.awl.slots.modify slot (fun p =>
          { p.setBank (!p.current) (some img) with current := !p.current, load := rest }) ∧
        u.awl.scans = s.awl.scans.map (fun c =>
          if c.desc = who then { c with bank := some (!(s.slot slot).current) } else c)) ∧
    (∀ slot : Nat, exec (.patternPersist slot) s = .next { s with awl := { s.awl with
      slots := s.awl.slots.modify slot (fun p => { p with
        persisted := (p.bank p.current).orElse (fun _ => p.persisted) }) } }) ∧
    (∀ entry : Nat, exec (.ruleParityError entry true) s = .next (s.bump 0x00050108) ∧
      exec (.ruleParityError entry false) s =
        .next ({ s with awl := { s.awl with rebuildUntil := s.tick + 125 } }.raise 0x8305 0 0 0)) ∧
    (∀ (slot : Nat) (bank : Bool), exec (.automatonParityError slot bank true) s = .next (s.bump 0x00050110))

/-- FORMAT_TENANT, REKEY, COMPACT and their ends (R54, R128 to R130, R381). -/
def Obligations.LongOperations : Prop :=
  ∀ (s : State) (id : Nat) (d : Desc),
    (let t := longTarget d
     ((s.tenant t).state = .running ∨ (s.tenant t).state = .stopped) →
     (Safety.Waits s id 0x60 d → s.replicated t = false →
       exec (.formatTenant id) s = .next (((s.beginLong id t 0x60 .format (s.tenant t).recs.length).removeKeys t
         ((s.tenant t).recs.map (·.key))).modTenant t (fun x => { x with holds := [], cursors := [] }) |>.queueSweep t t
         (s.tenant t).recs)) ∧
     (Safety.Waits s id 0x61 d → (s.secure.genIn t .pending).isSome = true →
       exec (.rekey id) s = .next (s.beginLong id t 0x61 .rekey 0)) ∧
     (Safety.Waits s id 0x62 d → exec (.compact id) s =
       .next ((s.beginLong id t 0x62 .compact 0).queueSweep t t (s.tenant t).recs))) ∧
    (∀ (t : Nat) (l : LongOp) (by_ : Nat), (s.tenant t).longOp = some l → l.issuer = some by_ →
      (l.kind = .format → exec (.longOperationComplete t) s =
        .next ((s.finish by_ l.count).modTenant t Tenant.endLong)) ∧
      (l.kind = .compact → exec (.longOperationComplete t) s = .next ((s.finish by_ 0).modTenant t Tenant.endLong)) ∧
      (l.kind = .rekey → exec (.longOperationComplete t) s =
        .next (((s.finishRekey t).finish by_ ((s.finishRekey t).leftBehind t)).modTenant t Tenant.endLong)))

/-- TENANT_CREATE, TENANT_RESIZE and TENANT_REMOVE (R136, R263, R264, R266, R268), STOP and START (R267). -/
def Obligations.TenantsAreCreatedAndRemoved : Prop :=
  ∀ (s : State) (id : Nat) (d : Desc),
    (let t := d.bitsOf 5 0
     let p := profileOf d.value
     Safety.Waits s id 0x74 d → (s.tenant t).state = .absent → s.creating.any (fun c => c.1 == t) = false →
     s.secure.lc = .owned → profileReserved d.value = false → s.profileFault t p (byteAt d.value 14) 0x7F = none →
     exec (.tenantCreate id) s =
       .next { s.accept id .waiting with creating := s.creating ++ [(t, id, p)] }) ∧
    (∀ (t by_ : Nat) (p : Profile), s.creating.find? (fun c => c.1 == t) = some (t, by_, p) →
      exec (.tenantCreateComplete t) s = .next ((({ s with
        creating := s.creating.filter (fun c => c.1 != t) }.modTenant t (fun _ => { Tenant.absent with
          state := .stopped, profile := p, day := 1, period := Period.opened 1 60 s.tick s.ledger.wall })).shareTo
            t p.share).finish by_ 0)) ∧
    (let t := d.bitsOf 5 0
     let mask := d.bitsOf 38 32
     let p := (s.tenant t).profile.take (profileOf d.value) mask
     Safety.Waits s id 0x75 d →
     ((s.tenant t).state = .running ∨ (s.tenant t).state = .stopped ∨ (s.tenant t).state = .draining ∨
       (s.tenant t).state = .squashing) →
     profileReserved d.value = false → s.profileFault t p (byteAt d.value 14) mask = none →
     s.shareInUse t p.share = false → (s.secure.keysOf t).length ≤ p.keyslots →
     exec (.tenantResize id) s = .next (((s.accept id .waiting).applyProfile t p).finish id 0)) ∧
    (let t := d.bitsOf 5 0
     Safety.Waits s id 0x76 d → (s.tenant t).state = .stopped → s.secure.lc = .owned → s.replicated t = false →
     exec (.tenantRemove id) s = .next { (s.accept id .waiting).modTenant t (fun x => { x with state := .removing }) with
       removing := s.removing.filter (fun r => r.1 != t) ++ [(t, id)] }) ∧
    (∀ t by_ : Nat, (s.tenant t).state = .removing → assoc s.removing t = some by_ →
      let f := (s.finishDue t).clearKeyPage t
      exec (.tenantRemoveComplete t) s = .next ({ ((((({ f with
        awl := s.awl.removeTenant t s.created
        secure := s.secure.eraseKeys t }.restartSpaces t).shareTo t 0).modTenant t (fun _ => Tenant.absent)).toScrub t).queueSweep
          33 t (s.tenant t).recs) with removing := s.removing.filter (fun r => r.1 != t) }.finish by_ 0)) ∧
    (∀ t : Nat, ((s.tenant t).state = .running ∨ (s.tenant t).state = .busy) →
      exec (.tenantStop t) s = .next (((((s.finishDue t).modTenant t (fun x => { x with
        holds := [], cursors := [], state := .draining, endStopped := true, resetAt := s.tick, resetBy := [],
        emptied := false })).dropTransfers t).dropUnsent t).bumpTnt t 0x118)) ∧
    (∀ t : Nat, ((s.tenant t).state = .draining ∨ (s.tenant t).state = .squashing) →
      exec (.tenantStop t) s = .next (s.modTenant t (fun x => { x with endStopped := true }))) ∧
    (∀ t : Nat, (s.tenant t).state = .stopped →
      exec (.tenantStart t) s = .next (s.modTenant t (fun x => { x with startDue := true })) ∧
      (t < 32 → s.tenants.length = 32 → s.pending = [] → s.dark = false → ∀ u v : State,
        exec (.tenantStart t) s = .next u → Sys2Proof.Machine.step u = .next v → (v.tenant t).state = .running))

/-- FUNCTION_RESET (R134, R273 to R276) and FULL_RESET (R135). -/
def Obligations.TenantsReset : Prop :=
  ∀ (s : State) (id : Nat) (d : Desc),
    (let t := d.bitsOf 5 0
     Safety.Waits s id 0x72 d → ((s.tenant t).state = .running ∨ (s.tenant t).state = .busy) →
     let a := s.accept id .waiting
     exec (.functionReset id) s = .next (((((a.finishDue t).modTenant t (fun x => { x.freeLeases with
       state := .draining, endStopped := false, resetAt := a.tick, resetBy := [id], emptied := false })).dropTransfers
         t).dropUnsent t).bumpTnt t 0x118)) ∧
    (∀ t : Nat, (s.tenant t).state = .draining → (s.tenant t).resetAt + 512 ≤ s.tick → s.drained t = false →
      let q := ((s.modTenant t (fun x => { x with state := .squashing })).takeBack t).cutLong t
      exec (.drainLimit t) s = .next ((q.descs.filter (fun e => e.fn == t)).foldl (fun s e => s.squash e) q)) ∧
    (∀ t : Nat, ((s.tenant t).state = .draining ∨ (s.tenant t).state = .squashing) → (s.tenant t).emptied = true →
      exec (.resetComplete t) s = .next ((((s.tenant t).resetBy.foldl (fun s by_ => s.finish by_ 0) s).modTenant t
        (fun x => { x with resetBy := [] })).modTenant t (fun x => { x with
          state := if x.endStopped then .stopped else .running
          endStopped := false
          emptied := false }))) ∧
    (∀ t : Nat, (s.tenant t).state = .stopped → (s.tenant t).resetAt < s.tick →
      exec (.resetComplete t) s = .next (((s.tenant t).resetBy.foldl (fun s by_ => s.finish by_ 0) s).modTenant t
        (fun x => { x with resetBy := [] }))) ∧
    (∀ t : Nat, (s.tenant t).state = .squashing → (s.tenant t).resetAt + 4096 ≤ s.tick → s.drained t = false →
      let w := ((s.tenant t).resetBy.foldl (fun s by_ => s.refuse by_ .wedged 0) s).modTenant t (fun x => { x with
        state := .wedged, resetBy := [], emptied := false })
      exec (.wedgeLimit t) s = .next (({ w with
        cinch := { w.cinch with chans := w.cinch.chans.map (fun c : Channel => c.toScrub t) } }.bump 0x00038100).raise 0x8201 t 0 0)) ∧
    (Safety.Waits s id 0x73 d →
      exec (.fullReset id) s = .next (s.answerWith id .done 0 [] [] [] (some (d.bitsOf 1 0, 1))))

/-- RULE_LOAD (R137, R341) and its last step (R343). -/
def Obligations.RulesAreLoaded : Prop :=
  ∀ (s : State),
    (∀ (id : Nat) (d : Desc), Safety.Waits s id 0x77 d →
      let t := d.bitsOf 5 0
      let clearVoid := d.bitsOf 9 9 == 1
      let img := (loadParts d).2
      let es := imageEntries img (u16 img 2)
      let after := rulesAfter (s.awl.visibleIn s.awl.view) t clearVoid es
      let all := t :: s.affectedBy t after
      (s.tenant t).state = .stopped → s.imageFault t img = none → (loadParts d).1.all isPermutation = true →
      ((loadParts d).1 = none ∨ (s.tenant t).recs = []) → (∀ u ∈ all, (s.tenant u).state = .stopped) →
      s.outsideFault all after (d.bitsOf 10 10 == 1) = none → (∀ u ∈ all, s.secure.nsbLeft u ≠ 0) → s.awl.loading = none →
      let a := (s.accept id .waiting).stageRules t clearVoid es
      exec (.ruleLoad id) s = .next { a with awl := { a.awl with
        loading := some { desc := id, target := t, affected := s.affectedBy t after, coll := (loadParts d).1,
                          started := a.tick } } }) ∧
    (∀ l : RuleLoading, s.awl.loading = some l →
      let all := l.target :: l.affected
      let after := s.awl.visibleIn (!s.awl.view)
      let b := ({ s with secure := s.secure.burnNsb all }.removeOutside l.target all after)
      let f := all.foldl (fun s u => s.modTenant u Tenant.freeLeases) b
      (∀ tab : Bytes, l.coll = some tab →
        let g := f.modTenant l.target (fun x => { x with coll := tab })
        exec .ruleLoadValidate s = .next (((all.foldl State.raiseAbove { g with
          awl := g.awl.settleView (!g.awl.view)
          span := { g.span with sets := g.span.sets.map (fun y : SetState => { y with skew := false }) } }).bump
            0x00050120).finish l.desc 0)) ∧
      (l.coll = none → exec .ruleLoadValidate s = .next (((all.foldl State.raiseAbove { f with
        awl := f.awl.settleView (!f.awl.view)
        span := { f.span with sets := f.span.sets.map (fun y : SetState => { y with skew := false }) } }).bump
          0x00050120).finish l.desc 0)))

/-- R29: the refusal, and that no two different keys compare equal. -/
def Obligations.CollationIsAPermutation : Prop :=
  (∀ (tab : Bytes) (i j : Nat), tab.length = 256 → i < j → j < 256 → tab.getD i 0 = tab.getD j 0 →
    isPermutation tab = false) ∧
  (∀ (s : State) (id : Nat) (d : Desc) (tab : Bytes), Safety.Waits s id 0x77 d → (s.tenant (d.bitsOf 5 0)).state ≠ .busy →
    s.imageFault (d.bitsOf 5 0) (loadParts d).2 = none → (loadParts d).1 = some tab → isPermutation tab = false →
    exec (.ruleLoad id) s = .next (s.refuse id .collationInvalid 0)) ∧
  (∀ (tab a b : Bytes), isPermutation tab = true → (cmpKeys (some tab) a b = .eq ↔ a = b))

/-- KEY_LOAD (R139, R369 to R371), TKP_GEN_ERASE (R382), the tack room (R372, R373) and entropy (R384). -/
def Obligations.KeysAreLoadedAndKept : Prop :=
  ∀ s : State,
    (∀ (id : Nat) (d : Desc) (key : Bytes), Safety.Waits s id 0x7A d →
      let t := d.bitsOf 5 0
      let kind := kindOf (d.bitsOf 11 8)
      let k := newSlot t kind (if kind = .data then (s.nextGen t).getD 0 else 0) (u32 d.value 8) key
      s.secure.lc = .owned → s.keyTargetBad (d.bitsOf 11 8) t = false → (t < 32 → (s.tenant t).state ≠ .busy) →
      s.unwrapBlob d.value kind.code t 1 = .ok key → s.slotsForbid kind t = false →
      (kind = .okek → s.secure.okekSpent < 64) →
      let x := s.secure.setSerial kind.code t (u32 d.value 8)
      exec (.keyLoad id) s = .next { (s.bump 0x00070100).accept id .waiting with secure := { x with
        okekSpent := x.okekSpent + (if kind = .okek then 1 else 0)
        keyLoads := x.keyLoads ++ [(id, k)] } }) ∧
    (∀ (id : Nat) (k : KeySlot) (rest : List (Nat × KeySlot)), s.secure.keyLoads = (id, k) :: rest →
      exec .keyLoadComplete s =
        .next (({ s with secure := { s.secure with keyLoads := rest } }.installKey k).finish id 0)) ∧
    (∀ record : Nat, exec (.keyRecordPersist record) s = .next { s with secure := { s.secure with
      tack := s.secure.tack.map (fun k : KeySlot => if k.slot = record then { k with inPslc := true } else k) } }) ∧
    (∀ (t : Nat) (value : Word) (k : KeySlot), bits value.toNat 31 16 = 0x4552 → (s.tenant t).state ≠ .busy →
      (s.tenant t).state ≠ .absent →
      s.secure.tack.find? (fun k => k.kind == .data && k.fn == t && k.gen == bits value.toNat 3 0 && k.gstate == .retired) =
        some k →
      exec (.tkpGenErase t value) s = .next ({ s with secure := { s.secure with
        tack := s.secure.tack.filter (fun k : KeySlot =>
          !(k.kind == KeyKind.data && k.fn == t && k.gen == bits value.toNat 3 0)) } }.loseGeneration t
            (bits value.toNat 3 0))) ∧
    (∀ (slot : Nat) (mask : Bytes), exec (.tackRemask slot mask) s = .next { s with secure := { s.secure with
      tack := s.secure.tack.map (fun k : KeySlot => if k.slot = slot && k.maskedAt + 1250 ≤ s.tick then
        { k with
          share0 := xorBytes (padTo 32 mask) k.share0, share1 := xorBytes (padTo 32 mask) k.share1, maskedAt := s.tick }
        else k) } }) ∧
    (∀ (slot : Nat) (k : KeySlot), s.secure.tack.find? (fun k => k.slot == slot && !k.lost) = some k →
      exec (.tackParityError slot true) s = .next (s.bump 0x00070118) ∧
      exec (.tackParityError slot false) s = .next (s.loseKey k)) ∧
    (s.secure.reseedAt + 125000 ≤ s.tick → exec (.entropyReseed true) s = .next { s with secure := { s.secure with
      seeded := true, reseeds := min 0xFFFF (s.secure.reseeds + 1), reseedAt := s.tick } }) ∧
    exec (.entropyReseed false) s =
      .next (({ s with secure := { s.secure with entFail := true } }.bump 0x00070120).raise 0x8701 0 0 0)

/-- LC_TRANSITION (R138, R388) and its end (R391). -/
def Obligations.LifeCycleMoves : Prop :=
  ∀ (s : State),
    (∀ (id : Nat) (d : Desc) (to_ : LcState) (k : Nat), Safety.Waits s id 0x78 d →
      lcOfTarget (d.bitsOf 3 0) = some to_ → s.secure.lcRunning = false → lcIssuer s.secure.lc to_ d.fn = true →
      d.value.length = lcLength s.secure.lc to_ → s.lcReady s.secure.lc to_ = true → s.secure.pairFor to_ = some k →
      s.lcCheck5 s.secure.lc to_ k d.value = none →
      let a := s.accept id .waiting
      exec (.lcTransition id) s = .next { a with secure := { a.secure with
        intent := some { frm := s.secure.lc, to_ := to_, k := k, tick := a.tick, value := d.value }
        lcDesc := some id
        lcRunning := true } }) ∧
    (∀ i : Intent, s.secure.intent = some i →
      let e := { s with secure := s.secure.burnRow (lcRowOf i.k) i.row }.lcEffects i.frm i.to_ i.value
      let x := e.secure.burnRow (lcRowOf i.k + 1) (lcRow true i.frm i.to_ i.k (e.tick % 2 ^ 32))
      let t : State := { e with secure := { x with
        intent := none, lcDesc := none, lcRunning := true, lcHeld := some i.frm } }
      (∀ id : Nat, s.secure.lcDesc = some id → exec .lcTransitionDone s = .next (t.finish id 0)) ∧
      (s.secure.lcDesc = none → exec .lcTransitionDone s = .next t))

/-- UPD_BEGIN to UPD_ACTIVATE (R405 to R408), abort and abandonment (R401). -/
def Obligations.UpdatesAreReceived : Prop :=
  ∀ (s : State) (id : Nat) (d : Desc),
    (Safety.Waits s id 0x80 d → s.updateGate .idle true = none → d.value.length = 512 → 1 ≤ manifestBlocks d.value →
      manifestBlocks d.value ≤ 4096 →
      let a := s.accept id .waiting
      exec (.updBegin id) s = .next ({ a with update := { a.update with
        stage := { manifest := d.value, blocks := [] }, received := [], session := .receiving, lastOp := a.tick } }.finish
          id 0)) ∧
    (Safety.Waits s id 0x81 d → s.updateGate .receiving false = none →
      d.bitsOf 15 0 < manifestBlocks s.update.stage.manifest → d.value.length = 65536 → crc32c d.value = d.bitsOf 63 32 →
      let i := d.bitsOf 15 0
      let a := (((s.accept id .waiting).bump 0x000A0100).queueBlocks 0 [i]).queueBlocks 1 [i]
      exec (.updBlock id) s = .next { a with update := { a.update with
        blockDescs := a.update.blockDescs ++ [(id, d.bitsOf 15 0, d.value)], lastOp := a.tick } }) ∧
    (∀ (i : Nat) (data : Bytes) (rest : List (Nat × Nat × Bytes)) (a b : Bool), s.update.blockDescs = (id, i, data) :: rest →
      s.update.inSession .receiving = true →
      let u : Update := { s.update with blockDescs := rest }
      ((a || b) = true → exec (.updBlockComplete a b) s = .next ({ s with update := { u with
        stage := { u.stage with blocks := insertSorted i data u.stage.blocks }
        received := i :: u.received.erase i } }.finish id 0)) ∧
      ((a || b) = false → exec (.updBlockComplete a b) s = .next (({ s with update := { u with
        received := u.received.erase i } }.bump 0x000A0108).refuse id .blockCrc 0))) ∧
    (Safety.Waits s id 0x82 d → s.updateGate .receiving false = none →
      (∀ i < manifestBlocks s.update.stage.manifest, i ∈ s.update.received) →
      let a := (s.accept id .waiting).queueBlocks 0 (List.range (manifestBlocks s.update.stage.manifest))
      exec (.updCommit id) s = .next { a with update := { a.update with
        commits := a.update.commits ++ [id], lastOp := a.tick } }) ∧
    (∀ rest : List Nat, s.update.commits = id :: rest → s.update.inSession .receiving = true →
      let u : State := { s with update := { s.update with commits := rest } }
      (u.commitFault = none → exec .updCommitComplete s = .next ({ u with update := { u.update with
        session := .committed, levelWarn := u.levelOutside } }.finish id 0)) ∧
      (∀ (reason : Nat), u.commitFault = some (reason, none) → exec .updCommitComplete s = .next ({ u with
        update := { u.update with commitErr := (reason, 0) } }.refuse id .signature reason)) ∧
      (∀ (reason : Nat) (p : Part), u.commitFault = some (reason, some p) → exec .updCommitComplete s = .next ({ u with
        update := { u.update with
          commitErr := (reason, p.kind)
          received := u.update.received.filter (fun i => !(p.first ≤ i && i < p.first + p.count)) } }.refuse id .signature
            (reason + p.kind * 256)))) ∧
    (Safety.Waits s id 0x83 d → s.updateGate .committed true = none →
      exec (.updActivate id) s = .next (({ s with update := { s.update with
        activated := true, lastOp := s.tick } }.bump 0x000A0110).answerWith id .done 0 [] [] [] (some (0, 6)))) ∧
    (s.update.endable = true →
      (∀ value : Word, bit value.toNat 0 = true → bits value.toNat 31 16 = 0x4142 →
        exec (.updAbort value) s = .next { s with update := { s.update with
          session := .idle, stage := Image.empty, received := [], lastResult := 4 } }) ∧
      (s.update.lastOp + 37500000 ≤ s.tick → exec .updAbandoned s = .next ({ s with update := { s.update with
        session := .idle, stage := Image.empty, received := [], lastResult := 5 } }.raise 0x8602 0 0 0)))

/-- HEALTH_CONFIRM (R416, R417), the self-tests (R413) and the halter (R412). -/
def Obligations.UpdatesAreConfirmed : Prop :=
  ∀ (s : State),
    (s.update.selfTestOk = false → exec .selfTestsPassed s =
      .next { s with update := { s.update with selfTestOk := true, testedAt := some s.tick } }) ∧
    (∀ (id : Nat) (d : Desc) (t0 : Nat), Safety.Waits s id 0x84 d → s.update.session = .unconfirmed →
      s.update.selfTestOk = true → s.update.testedAt = some t0 → s.tick < t0 + 7500000 →
      let m := s.update.active.manifest
      exec (.healthConfirm id) s = .next (((({ s with update := { s.update with
        minSec := max s.update.minSec (byteAt m 10)
        revoked := s.update.revoked ||| BitVec.ofNat 4 (byteAt m 12)
        dataFmt := byteAt m 15
        cfgFmt := byteAt m 17
        newRecords := false
        session := .idle
        lastResult := 1
        starts := 0
        stage := Image.empty
        received := [] } } : State).addRecord (s.bareRecord 34) []).finish id 0).raise 0x8605 0 0 (manifestVersion m))) ∧
    (∀ why : HalterWhy, s.update.halterDue s.tick why = true → exec (.halterReset why) s =
      .next (({ s with update := { s.update with halted := some why } }.bump 0x000A0120).causeReset 0 5))

/-- The cinch (R279 to R289). -/
def Obligations.CinchArbitrates : Prop :=
  ∀ s : State,
    (exec .cinchCreditTick s = .next ({ s with cinch := { s.cinch with chans := s.cinch.chans.map s.creditTick } }.bumpBy
      0x00050138 (s.cinch.chans.filter (fun c : Channel => c.pace < 25)).length) ∧
     (∀ (c : Channel) (r : Nat) (q : Requester), c.reqs[r]? = some q → q.flows ≠ [] → c.owner ≠ some r →
       ((s.creditTick c).reqs[r]?).map (·.k) =
         some (max (-1048576) (min 262144 (q.k + 16 * (s.weightOf r : Int))))) ∧
     (∀ (c : Channel) (r : Nat) (q : Requester) (f : Flow) (rest : List Flow), c.reqs[r]? = some q → q.flows = f :: rest →
       c.owner = some r → ((s.creditTick c).reqs[r]?).map (·.k) =
         some (max (-1048576) (min 262144 (q.k - 512 * ((min (c.pace - c.beats) f.left : Nat) : Int)))))) ∧
    (∀ (ch : Fin 16) (r step : Nat), (s.chan ch).owner = none → s.candidate (s.chan ch) = some (r, step) →
      exec (.cinchGrant ch) s = .next (s.grantOn ch r step) ∧
      ((s.chan ch).grant r step).owner = some r ∧
      (∀ (i : Nat) (q : Requester), (s.chan ch).reqs[i]? = some q → i ≠ r →
        ((s.chan ch).grant r step).reqs[i]? = some { q with b := q.b - 1 }) ∧
      (∀ q : Requester, (s.chan ch).reqs[r]? = some q → ∃ q', ((s.chan ch).grant r step).reqs[r]? = some q' ∧
        q'.wait = 0 ∧ q'.starve = 0 ∧ q'.k = q.k ∧ q'.l = q.l ∧ q'.b = if step = 3 then 0 else q.b)) ∧
    (∀ (ch : Fin 16) (h : Nat) (f : Flow) (rest : List Flow), (s.chan ch).owner = some h →
      ((s.chan ch).req h).flows = f :: rest → f.urgent = none →
      let c := s.chan ch
      (∀ r : Nat, oldestUrgent c (s.eligible c) = some r →
        let j := min 1 (c.pace - c.beats)
        (j < f.left → exec (.cinchPreempt ch) s = .next ((s.modChan ch (fun _ =>
          { c.modReq h (fun q : Requester => q.move j) with owner := none, beats := c.beats + j })).grantOn ch r 1)) ∧
        (f.left ≤ j → exec (.cinchPreempt ch) s = .next ((s.modChan ch (fun _ =>
          { c.modReq h (fun q : Requester => { q.move j with l := 0, flows := (q.move j).flows.drop 1 }) with
            owner := none, beats := c.beats + j })).grantOn ch r 1))) ∧
      (∀ r j : Nat, oldestUrgent c (s.eligible c) = none →
        highestCredit c ((s.eligible c).filter (fun r => (c.req r).b == 0)) = some r → s.cinch.preemptEn = true →
        beatsToLoss (c.req r).k (c.req h).k s.cinch.margin = some j →
        let l := min ((c.req h).l + 1) 6
        j ≤ c.pace - c.beats → j < f.left →
        exec (.cinchPreempt ch) s = .next (((s.modChan ch (fun _ =>
          ({ c.modReq h (fun q : Requester => q.move j) with owner := none, beats := c.beats + j } : Channel).modReq h
            (fun q : Requester => { q with l := l, b := 2 ^ l }))).grantOn ch r 2).bump 0x00040208))) ∧
    (∀ (ch : Fin 16) (r : Nat), exec (.transferUrgent ch r) s =
      .next (s.modChan ch (fun c : Channel => c.modReq r (fun q : Requester => { q with flows := q.flows.map s.makeUrgent })))) ∧
    (∀ (ch : Fin 16) (h : Nat) (f : Flow) (rest : List Flow), (s.chan ch).owner = some h →
      ((s.chan ch).req h).flows = f :: rest → exec (.cinchTransferEnd ch) s = .next (s.modChan ch Channel.finish)) ∧
    (∀ (ch : Fin 16) (r : Nat), let q := (s.chan ch).req r
      q.flows.any (fun f : Flow => f.urgent.isNone) = true → s.masked r = false → s.cinch.starveTicks ≤ q.starve →
      let t := ({ s with cinch := s.cinch.flagStarved r }).bump 0x00040220
      exec (.cinchStarved ch r) s = .next (if s.cinch.starved r then t else t.raise 0x8202 r ch 0))

/-- PARTIAL_WORD_WRITE (R305, R306) over the memory in canonical form. The structure that the consequence of a word which cannot be
corrected is that of is the model's free choice (assumption log 124). -/
def Obligations.WordMemory : Prop :=
  ∀ (s : State) (m : Mem) (addr offset : Nat) (data : Bytes) (found : Found),
    ((addr < Mem.size m ∧ offset + data.length ≤ 8 ∧ 0 < data.length) → wordsWf s.media.words = true →
      let k := Mem.word m addr
      let written (t : State) (c : Cell) : Prop :=
        (∃ w n, t = { s with media := { s.media with words := w }, counters := n }) ∧ wordsWf t.media.words = true ∧
        (∀ k', k' ≠ k → readWord t.media.words k' = readWord s.media.words k') ∧ readWord t.media.words k = c
      (data.length = 8 ∨ (readWord s.media.words k ≠ Cell.poisoned ∧ found ≠ .ue) →
        ∃ t, exec (.partialWordWrite m addr offset data found) s = .next t ∧
          written t (Cell.fresh (mergeBytes (readWord s.media.words k).data offset data))) ∧
      (data.length ≠ 8 → (readWord s.media.words k = Cell.poisoned ∨ found = .ue) →
        ∃ (t : State) (x : Struct), written t Cell.poisoned ∧ inMem m x = true ∧
          exec (.partialWordWrite m addr offset data found) s = .next ({ t with free := s.free + 1 }.uncorrectable x))) ∧
    (¬ (addr < Mem.size m ∧ offset + data.length ≤ 8 ∧ 0 < data.length) →
      exec (.partialWordWrite m addr offset data found) s = .fault .noSuchWord)

/-- The burnisher (R304, R308, R317), refresh (R319, R326), the age counter (R318), dies (R329), small counts (R311, R330). -/
def Obligations.MediaIsKept : Prop :=
  ∀ s : State,
    (∀ (m : Mem) (addr : Nat) (f : Found) (x : Struct), s.dark = false → exec (.burnisherWalk (.word m addr f x)) s =
      .next ((s.walkWord m addr f x).walked (match m with
        | .dram => 1
        | .sram => 2
        | .mram => 3))) ∧
    (∀ (m : Mem) (addr : Nat) (x : Struct), inMem m x = true →
      let k := Mem.word m addr
      (readWord s.media.words k ≠ Cell.poisoned →
        s.walkWord m addr .good x = s ∧
        s.walkWord m addr .ce x = ({ s with media := { s.media with
          words := writeWord s.media.words k (Cell.fresh (readWord s.media.words k).data) } } : State).bumpMed (ceCounter m) ∧
        s.walkWord m addr .ue x = (s.bumpMed (ceCounter m + 8)).uncorrectable x) ∧
      (∀ f : Found, readWord s.media.words k = Cell.poisoned →
        s.walkWord m addr f x = (s.bumpMed 0x140).uncorrectable x)) ∧
    (∀ (b : BlockId) (o : ReadOutcome) (n : Nat) (u d : List Nat) (v : List (Nat × Bytes × Nat)), s.dark = false →
      (s.media.firstPass = false ∨ s.media.oldestFirst b = true) →
      let q := s.queueWork (b.die / s.diesPerChannel) 33 codewordBytes none
      exec (.burnisherWalk (.flash b o n u d v)) s = .next (({ q with media := { q.media with
        visited := (b :: q.media.visited).eraseDups } }.walkFlash b o n u d v).walked 0)) ∧
    (∀ e : Nat, s.dark = false → exec (.burnisherWalk (.tile e true)) s = .next (s.walked 4) ∧
      exec (.burnisherWalk (.tile e false)) s = .next ((s.bump 0x00050108).walked 4)) ∧
    (∀ (blk to_ : BlockId) (counter : Nat),
      let b := s.media.block blk
      refreshCause s.media.age b = some counter → s.dark = false → s.power.programLimit ≠ 0 →
      s.media.takes b (s.media.block to_) = true →
      let x := (s.media.modBlock to_ (fun y => y.program b.pslc s.media.age)).modBlock blk Block.erase
      let t := { s with media := { x with life := (x.life.modify 20 (· + 1)).modify 3 (fun n =>
        if b.pslc then n else max n (b.cycles + 1)) } }.bumpMed counter
      exec (.blockRefresh blk to_) s = .next (if b.limit && b.limitBefore then t.retireBlock blk else t)) ∧
    (s.media.ratedAt + 1250 ≤ s.tick → exec .ageCounterUpdate s =
      .next { s with media := { s.media with ageRate := ageRateOf s.power.td, ratedAt := s.tick } }) ∧
    (∀ (ch : Fin 16) (die : Nat), die < s.diesPerChannel → s.media.retiredDies.contains (ch.val, die) = false →
      let dies := s.media.retiredDies ++ [(ch.val, die)]
      exec (.dieRetire ch die) s = .next ({ s with media := { s.media with
        retiredDies := dies
        blocks := s.media.blocks.filter (fun b : Block => b.id.die != ch.val * s.diesPerChannel + die)
        spare := s.spareAfter dies.length
        life := s.media.life.modify 21 (· + 1) } }.raise 0x8303 ch die 0).watchSpare) ∧
    exec .fabricBurstCut s = .next (s.bumpMed 0x198) ∧
    (s.dark = false → s.media.copiedAt + 450000000 ≤ s.tick → exec .lifetimeRecordCopy s =
      .next { s with media := { s.media with lifeCopy := s.media.life, copiedAt := s.tick } })

/-- The adaptive loops (R323 to R327), the power limit (R428) and thermal protection (R433). -/
def Obligations.LoopsAdapt : Prop :=
  ∀ s : State,
    (∀ m : Int, m < 20 → s.power.vfSafe = none → 12 < s.power.vfStep →
      exec (.vfStepDown m) s = .next ({ s with power := { s.power with
        margin := m, vfStep := s.power.vfStep - 1, vfGood := 0 } }.bump 0x000B0200)) ∧
    (∀ m : Int, 60 ≤ m → 1250 ≤ s.power.vfGood → s.power.vfSafe = none → s.power.vfStep < s.power.stepCap →
      exec (.vfStepUp m) s = .next { s with power := { s.power with
        margin := m, vfVolt := s.power.vfStep + 1, vfUp := true, vfGood := 0 } }) ∧
    (∀ (m : Int) (p : Bool), (p = false ∨ m < 0) → exec (.vfSafe m p) s = .next (({ s with power := { s.power with
      margin := m, vfStep := 12, vfUp := false, vfSafe := some s.tick, vfGood := 0 } }.bump 0x000B0208).raise 0x8505 0 0 0)) ∧
    (∀ t : Nat, s.power.vfSafe = some t → t + 125000 ≤ s.tick →
      exec .vfSafeEnd s = .next { s with power := { s.power with vfSafe := none } }) ∧
    (∀ cw : Nat, 2700 < cw → exec (.powerLimit cw) s = .next { s with power := Power.capped { s.power with
      cw := cw, powerHigh := true, powerCap := max 12 (s.power.powerCap - 1) } }) ∧
    (∀ cw : Nat, cw < 2500 → exec (.powerLimitRelease cw) s = .next { s with power := { s.power with
      cw := cw, powerHigh := false, powerCap := 18 } }) ∧
    (∀ lane : Fin 4, let l := s.power.lanes.getD lane Lane.reset
      125000 ≤ l.limitFor ∨ 125000 ≤ l.lowFor → exec (.serdesMargin lane) s = .next (({ s with power := { s.power with
        lanes := s.power.lanes.modify lane (fun l => { l with limitFor := 0, lowFor := 0 }) } }.bump 0x000B0218).raise
          0x8003 lane 0 0)) ∧
    (∀ td tj tb : Int, s.power.reducedAt + 1250 ≤ s.tick →
      exec (.thermalLoopUpdate ⟨some td, some tj, some tb⟩) s = .next { s with
      power := Power.capped { s.power with
        reducedAt := s.tick
        td := td, tj := tj, tbank := tb, sensorBad := false
        reduction := stepReduction s.power.reduction (wantedReduction (16128 - s.floorSum) s.power.thrStart td)
        clockCap := if s.power.thrStart + 10 ≤ td ∨ 105 ≤ tj then true
          else if td < s.power.thrStart + 8 ∧ tj < 100 then false else s.power.clockCap } }) ∧
    (∀ td : Int, 85 ≤ td → s.power.thermal = false → exec (.thermalHigh td) s =
      .next ({ s with power := { s.power with td := td, thermal := true } }.raise 0x8501 (ofSigned 16 td) 0 0)) ∧
    (∀ td : Int, td < 80 → s.power.thermal = true → exec (.thermalOk td) s =
      .next ({ s with power := { s.power with td := td, thermal := false } }.raise 0x8502 (ofSigned 16 td) 0 0))

/-- The pins of the connector (R424 to R430), the trip (R434), and the holdup bank (R303, R431). -/
def Obligations.PowerAndPins : Prop :=
  ∀ s : State,
    (∀ n : Nat, s.power.supplyGood = true → s.power.rails = .on →
      let life := if 0 < n ∧ 0 < s.power.programLimit then s.media.life.modify 17 (· + 1) else s.media.life
      ∃ t, exec (.powerFail n) s = .next t ∧ t.power.rails = .off ∧ t.power.supplyGood = false ∧
        t.ledger.tickJournal = s.tick ∧
        (s.awl.loading = none → s.secure.intent = none → t.ledger.journal = s.ledger.journal ∧ t.media.life = life ∧
          t.media.lifeCopy = s.media.lifeCopy) ∧
        t.descs = [] ∧ t.latches = [] ∧ t.boot.phase = 0) ∧
    (s.power.supplyGood = false → s.power.pwrDis = false → exec .powerGood s =
      .next (({ s with power := { s.power with supplyGood := true } } : State).coldStart 3 10)) ∧
    (s.power.rails = .on → exec .pwrDisAssert s =
      .next (({ s with power := { s.power with pwrDis := true } } : State).cleanDown .off false)) ∧
    (s.power.pwrDis = true → s.power.rails = .off → s.power.supplyGood = true → exec .pwrDisRelease s =
      .next (({ s with power := { s.power with pwrDis := false } } : State).coldStart 3 9)) ∧
    (∀ td tj : Int, (95 ≤ td ∨ 120 ≤ tj) → s.power.rails = .on →
      let c := s.cleanDown .thermalHold true
      exec (.thermalTrip td tj) s = .next { c with
        power := { c.power with td := td, tj := tj, tripped := true, tripTemps := some (td, tj) }
        boot := { c.boot with phase := 14 } }) ∧
    (s.power.rails = .thermalHold → s.power.pwrDis = false → exec .thermalHoldEnd s = .next (s.coldStart 3 8)) ∧
    exec .resetNAssert s =
      .next (({ s with power := { s.power with resetN := false } } : State).causeReset 1 4) ∧
    exec .resetNRelease s = .next { s with power := { s.power with resetN := true } } ∧
    (s.power.leverOpen = false → exec .leverOpen s =
      .next ({ s with power := { s.power with leverOpen := true } }.raise 0x8601 0 0 0)) ∧
    exec .leverClose s = .next { s with power := { s.power with leverOpen := false } } ∧
    (s.power.actUntil ≤ s.tick → exec .actNRelease s = .next { s with power := { s.power with actUntil := 0 } }) ∧
    (∀ mj : Nat, s.power.charging = true →
      exec (.holdupMeasure mj) s = .next { s with power := { s.power with energy := mj } }) ∧
    (∀ mj : Nat, s.power.charging = false → s.power.measureDue ≤ s.tick →
      let r := min 100 (mj * 100 / 24000)
      let u : State := { s with
        power := { s.power with
          energy := mj, measureDue := s.tick + 10800000000, holdupLow := r < 90, holdupFail := r < 10 }
        media := { s.media with life := s.media.life.modify 18 (min r) } }
      let v := if r < 90 ∧ s.power.holdupLow = false then u.raise 0x8402 r 0 0 else u
      exec (.holdupMeasure mj) s = .next (if r < 10 ∧ s.power.holdupFail = false then v.raise 0x8403 r 0 0 else v)) ∧
    (∀ mj : Nat, s.power.charging = true → s.power.powerHigh = false → exec (.holdupChargeComplete mj) s =
      .next (({ s with power := { s.power with charging := false } } : State).measureBank mj))

/-- Resets (R441 to R444), start-up (R445), saved settings (R443), the tick source (R438, R439). -/
def Obligations.ResetsAndStartUp : Prop :=
  ∀ s : State,
    (∀ p : Path, let c := if p = .mgmt then 2 else 3
      exec (.glbResetController p) s = .next (s.causeReset 0 c) ∧ exec (.glbResetDrive p) s = .next (s.causeReset 1 c) ∧
      exec (.glbResetPower p) s = .next (s.causeReset 2 c)) ∧
    (∀ type cause : Nat, s.power.rails = .on → 9 ≤ s.boot.phase →
      (s.boot.pending = none →
        s.causeReset type cause = { s with boot := { s.boot with pending := some (type, cause) } }) ∧
      (∀ t k : Nat, s.boot.pending = some (t, k) → type ≤ t → s.causeReset type cause = s.bump 0x00000108)) ∧
    (∀ type cause : Nat, s.boot.pending = some (type, cause) →
      (type ≠ 2 →
        let e := (s.endVolatile (type == 1) false true).bump 0x00000100
        exec .resetBegin s = .next { e with boot := { e.boot with
          phase := 0, pending := none, cause := cause, rtype := type } }) ∧
      (type = 2 →
        let e := s.cleanDown .off false
        exec .resetBegin s = .next { e with boot := { e.boot with cause := cause, rtype := 2 } })) ∧
    (∀ f : Findings, s.mayStart = true → exec (.startUp f) s = .next (s.startUp f)) ∧
    (∀ v : Word, bits v.toNat 31 16 = 0x5356 →
      exec (.glbCfgSave v) s = .next { s with boot := { s.boot with saved := some s.settings } }) ∧
    (∀ ppm phase : Nat, s.power.srcReq = true → s.power.srcIn = false → ppm ≤ 20 →
      exec (.tickInQualified false ppm phase) s = .next { s with power := { s.power with
        srcIn := true, tickOk := true, slewUntil := s.tick + ceilDiv (5 * phase) 2 } }) ∧
    (∀ b : Bool, s.power.srcIn = true → exec (.tickLost b) s = .next (({ s with power := { s.power with
      srcIn := false, tickOk := false, slewUntil := 0 } }.bump 0x00000110).raise 0x8506 (if b then 1 else 0) 0 0))

/-- R23 over bumpBy, the one operation that counts, and the read that clears. -/
def Obligations.CountersStopAtTheTop : Prop :=
  ∀ (s : State) (a n : Nat), s.counter a < 2 ^ 48 →
    (s.bumpBy a n).counter a = min (s.counter a + n) (2 ^ 48 - 1) ∧
    (∀ b, b ≠ a → (s.bumpBy a n).counter b = s.counter b) ∧
    (s.counter a = 2 ^ 48 - 1 → (s.bumpBy a n).counter a = 2 ^ 48 - 1) ∧
    (∀ path : Path, counterAt a = some (a, true) → pathReaches path a = true → s.pageAbsent a = false →
      ∃ t, exec (.counterLoRead path a) s = .next t ∧ t.counter a = 0 ∧
        (n < 2 ^ 48 → (t.bumpBy a n).counter a = n) ∧ (∀ b, b ≠ a → t.counter b = s.counter b))

/-- MGMT_READ and MGMT_WRITE (R133), REGISTER_WRITE (R21), counters (R22) and pairs (R467). -/
def Obligations.RegistersAreReadAndWritten : Prop :=
  ∀ s : State,
    (∀ (id : Nat) (d : Desc), Safety.Waits s id 0x70 d →
      let r := s.readWords .mgmt (d.bitsOf 31 0) (d.bitsOf 39 32)
      exec (.mgmtRead id) s = .next (r.2.answer id .done 0 [] [] (wordImages r.1))) ∧
    (∀ (id : Nat) (d : Desc), Safety.Waits s id 0x71 d →
      exec (.mgmtWrite id) s = .next ((s.writeWords .mgmt (d.bitsOf 31 0) (imageWords d.value)).finish id 0)) ∧
    (∀ v : Word, (50 ≤ bits v.toNat 7 0 → bits v.toNat 7 0 ≤ 70 → exec (.registerWrite 0x000B0008 v) s =
        .next { s with power := { s.power with thrStart := bits v.toNat 7 0 } }) ∧
      (bits v.toNat 7 0 < 50 → exec (.registerWrite 0x000B0008 v) s = .next s)) ∧
    (∀ v : Word, 4096 ≤ v.toNat → v.toNat ≤ 524288 → exec (.registerWrite 0x00040004 v) s =
      .next { s with cinch := { s.cinch with margin := v.toNat } }) ∧
    (∀ v : Word, exec (.registerWrite 0x00040020 v) s =
      .next { s with cinch := { s.cinch with starveT := s.cinch.starveT &&& ~~~(BitVec.ofNat 32 v.toNat) } }) ∧
    (∀ (path : Path) (a : Nat), counterAt a = some (a, true) → pathReaches path a = true → s.pageAbsent a = false →
      ∃ t, exec (.counterLoRead path a) s = .next t ∧ t.counter a = 0 ∧ t.latch path a = s.counter a / 2 ^ 32 ∧
        (∀ (q : Path) (b : Nat), (q, b) ≠ (path, a) → t.latch q b = s.latch q b) ∧
        (path = .smbus → t.smbus.out = toLe 4 (s.counter a % 2 ^ 32))) ∧
    (∀ (path : Path) (a v w : Nat), s.pairAt a = some (v, w) → pathReaches path a = true → s.pageAbsent a = false →
      ∃ t, exec (.pairLRead path a) s = .next t ∧ t.counters = s.counters ∧ t.latch path a = v / 2 ^ 32 % 2 ^ w ∧
        (∀ (q : Path) (b : Nat), (q, b) ≠ (path, a) → t.latch q b = s.latch q b) ∧
        (path = .smbus → t.smbus.out = toLe 4 (v % 2 ^ 32)))

/-- The SMBus target (R449 to R452). -/
def Obligations.SmbusTransactions : Prop :=
  ∀ s : State, s.power.supplyGood = true →
    (∀ data : Bytes, data.length = 5 →
      let p := leNat (data.take 4)
      let k := byteAt data 4
      let x := { s.smbus with ptr := p, count := k }
      ((pathReaches .smbus p = true ∧ p % 4 = 0 ∧ 1 ≤ k ∧ k ≤ 8) →
        exec (.smbSetPointer data true) s = .next { s with smbus := x }) ∧
      (¬ (pathReaches .smbus p = true ∧ p % 4 = 0 ∧ 1 ≤ k ∧ k ≤ 8) →
        exec (.smbSetPointer data true) s = .next { s with smbus := { x with addrErr := true } })) ∧
    (pathReaches .smbus s.smbus.ptr = true → 1 ≤ s.smbus.count → s.smbus.count ≤ 8 →
      let r := s.smbWords s.smbus.ptr s.smbus.count
      exec (.smbBlockRead true) s = .next { r.2 with smbus := { r.2.smbus with
        ptr := (s.smbus.ptr + 4 * s.smbus.count) % 2 ^ 32, out := wordImages r.1 } }) ∧
    (∀ data : Bytes, data.length = 4 →
      let u : State := { s with smbus := { s.smbus with ptr := (s.smbus.ptr + 4) % 2 ^ 32 } }
      (s.smbus.ptr = 0x00000038 → exec (.smbWriteWord data true) s = .next (u.keyedReset .smbus (leNat data))) ∧
      (s.smbus.ptr = 0x00000054 → exec (.smbWriteWord data true) s = .next { u with
        events := { s.events with en := BitVec.ofNat 8 (bits (leNat data) 15 8) } }) ∧
      (s.smbus.ptr ≠ 0x00000038 → s.smbus.ptr ≠ 0x00000054 → pathReaches .smbus s.smbus.ptr = true →
        exec (.smbWriteWord data true) s = .next u)) ∧
    exec (.smbReadFlags true) s = .next { s with smbus := { s.smbus with
      out := [BitVec.ofNat 8 ((if s.smbus.addrErr then 1 else 0) + (if s.smbus.pecErr then 2 else 0))]
      addrErr := false, pecErr := false } } ∧
    (let bad := { s with smbus := { s.smbus with pecErr := true } }.bump 0x00000118
     (∀ data : Bytes, exec (.smbSetPointer data false) s = .next bad ∧ exec (.smbWriteWord data false) s = .next bad) ∧
     exec (.smbBlockRead false) s = .next bad ∧ exec (.smbReadFlags false) s = .next bad) ∧
    exec .smbAlertResponse s = .next { s with smbus := { s.smbus with
      out := if s.events.pend &&& s.events.en ≠ 0#8 then [0xB4#8] else [] } }

/-- SPAN_JOIN (R141, R216, R232), SPAN_LEAVE (R218), SPAN_STATUS (R233) and SPN_CFG_GO (R221). -/
def Obligations.SpanMembership : Prop :=
  ∀ (s : State) (id : Nat) (d : Desc),
    (Safety.Waits s id 0x90 d → s.span.state = .none → (s.secure.lc = .owned ∨ s.secure.lc = .locked) →
      d.value.length = 96 → cfgValid d.value = true → (cfgRing d.value).contains (d.bitsOf 3 0) = true →
      byteAt d.value 80 = s.level.1 →
      (s.span.identity = some (cfgIdentity d.value) ∨ s.secure.rebindSpent < 32) → s.span.reconfig = false →
      let a := s.accept id .waiting
      exec (.spanJoin id) s = .next { a with span := { s.span with
        state := .joining, me := d.bitsOf 3 0, cfg := some d.value
        join := some { desc := some id, began := a.tick, probed := false, reqSent := false } } }) ∧
    (∀ t : Nat, s.span.state = .joining →
      s.span.join = some { desc := some id, began := t, probed := false, reqSent := false } → t + 62500 ≤ s.tick →
      exec .spanJoinTimeout s =
        .next (({ s with span := s.span.departed } : State).refuse id .spanReconfig 1)) ∧
    (Safety.Waits s id 0x91 d → s.span.state = .member →
      let a := (s.accept id .waiting).orderSystem (systemEntry 9 none 0 0 s.span.me [])
      exec (.spanLeave id) s = .next { a with span := { a.span with state := .leaving, leave := some id } }) ∧
    (Safety.Waits s id 0x91 d → s.span.state = .outside →
      exec (.spanLeave id) s = .next ((s.accept id .waiting).leaveSpan.finish id 0)) ∧
    (Safety.Waits s id 0x92 d →
      exec (.spanStatus id) s = .next (s.answer id .done 0 [] [] (s.spanRecord d.fn))) ∧
    (s.span.state = .member → s.span.reconfig = false →
      let x := s.span
      let good := cfgIdentity x.staged = cfgIdentity x.record ∧ cfgEpoch x.staged = cfgEpoch x.record + 1 ∧
        cfgValid x.staged = true
      (good → exec .spnCfgGo s = .next (({ s with span := { x with reconfig := true } } : State).orderSystem
        (systemEntry 6 none 0 0 0 x.staged))) ∧
      (¬ good → exec .spnCfgGo s = .next { s with span := { x with cfgBad := true } }))

/-- The ring frames of Table 5.2 (R186 to R190, R203, R204, R217, R221 to R228). -/
def Obligations.RingFramesAreHeard : Prop :=
  ∀ (s : State) (port : RingPort) (frame : Bytes),
    (∀ (c : Instr) (t : Nat), Safety.ringCommand c = some (port, frame, t) →
      ((s.span.state = .none ∨ s.serving = false) → exec c s = .next s) ∧
      (s.span.state ≠ .none → s.serving = true → parseRing frame = .error false →
        exec c s = .next (s.bump (if port = .up then 0x00020130 else 0x00020138))) ∧
      (s.span.state ≠ .none → s.serving = true → parseRing frame = .error true →
        exec c s = .next (s.bump (if port = .up then 0x00020150 else 0x00020158)))) ∧
    (∀ f : RingFrame,
      let h := Safety.passed s port frame f f
      let b := f.body
      (Safety.Heard s port frame 2 f → s.span.inOrder = true →
        exec (.batch port frame) s = .next { h with
          span := (h.span.openBatch (u64 b 0) (u64 b 8) f.source).modBatch (u64 b 0) f.source
            (fun x => if x.complete then x else x.addFrame (u16 b 16) b) }) ∧
      (∀ x : Batch, Safety.Heard s port frame 3 f → s.span.inOrder = true →
        h.span.findBatch (u64 b 0) f.source = some x → x.covered = false → x.complete = false →
        exec (.trailer port frame) s = .next (({ h with span := h.span.modBatch (u64 b 0) f.source (fun y =>
          if y.complete then y else { y with trailer := some b }.assemble) } : State).batchWhole (u64 b 0) f.source)) ∧
      (Safety.Heard s port frame 4 f → s.span.inOrder = true →
        let x := h.span.modBatch (u64 b 0) (byteAt b 8) (fun y => { y with
          acks := (byteAt b 9, BitVec.ofNat 16 (u16 b 10)) :: y.acks.filter (fun a => a.1 != byteAt b 9) })
        exec (.ack port frame) s = .next ({ h with span := { x with sets := x.sets.map (fun z : SetState =>
          if bit (u16 b 10) z.id then { z with away := z.away.filter (fun m => m != byteAt b 9) } else z) } }.watchSets)) ∧
      (Safety.Heard s port frame 5 f → exec (.digestReport port frame) s = .next { h with span := { h.span with
        reports := h.span.reports ++ [({ rot := s.span.rotation, kind := byteAt b 0, set := byteAt b 1, who := byteAt b 2,
                                         index := u64 b 4, digest := slice b 12 48 } : Report)] } }) ∧
      (Safety.Heard s port frame 6 f → s.span.inOrder = true → s.span.me = s.span.master →
        u32 b 0 = cfgEpoch s.span.record → slice b 4 16 = cfgDigest s.span.record →
        (cfgRing s.span.record).contains (byteAt b 20) = true → s.span.joins.contains (byteAt b 20) = false →
        s.span.system = [] →
        exec (.joinReq port frame) s = .next (h.orderSystem (systemEntry 7 none 0 0 (byteAt b 20) []))) ∧
      (Safety.Heard s port frame 7 f → (s.span.state = .joining ∨ s.span.state = .outside) →
        cfgIdentity b = cfgIdentity s.span.record → cfgEpoch s.span.record < cfgEpoch b → cfgValid b = true →
        exec (.configXfer port frame) s = .next { h with span := { h.span with cfg := some b } }) ∧
      (Safety.Heard s port frame 8 f → exec (.probe port frame) s =
        .next ((Safety.passed s port frame f (probeHop f)).ringSend 9 f.source (b.take 9 ++ List.replicate 7 0#8))) ∧
      (∀ now up : Nat, Safety.Heard s port frame 9 f → byteAt b 8 ≠ s.span.lastHop → s.span.loopDelay ≤ 4000 →
        exec (.probeEcho port frame now up) s =
          .next { h with span := { h.span with upDelay := up, loopLong := false } }) ∧
      (∀ now up : Nat, Safety.Heard s port frame 9 f → byteAt b 8 = s.span.lastHop →
        let delay := now - u64 b 0
        let t : State := { h with span := { h.span with
          upDelay := up, loopDelay := delay, loopLong := 4000 < delay } }
        exec (.probeEcho port frame now up) s = .next (if 4000 < delay then t.raise 0x8102 0 0 delay else t)) ∧
      (∀ x : Batch, Safety.Heard s port frame 10 f → s.span.heldBatch (u64 b 0) = some x →
        let t := Safety.received s port frame
        exec (.batchReq port frame) s =
          .next (({ t with span := t.span.hear f.source } : State).sendCopies x f.source)) ∧
      (Safety.Heard s port frame 11 f → s.span.inOrder = true → exec (.batchResend port frame) s = .next (h.copyFrame f)) ∧
      (Safety.Heard s port frame 12 f → exec (.resyncReq port frame) s = .next (h.streamSet f)) ∧
      (∀ r : Resync, Safety.Heard s port frame 13 f → s.span.resync = some r → byteAt b 0 = r.set → f.source = r.source →
        (byteAt b 1 = 1 → exec (.resyncData port frame) s = .next (h.installRecord r b)) ∧
        (byteAt b 1 = 2 → exec (.resyncData port frame) s = .next (h.endResync r b))) ∧
      (∀ e : Nat, Safety.Heard s port frame 1 f → (s.span.state = .member ∨ s.span.state = .leaving) →
        (h.span.disagrees b = false → exec (.rein port frame e) s = .next (h.reinMember f e)) ∧
        (h.span.disagrees b = true → exec (.rein port frame e) s =
          .next ((({ h with span := (h.span.keepRein b).takeSlot b } : State).raise 0x8104 0 0 (u32 b 0)).goOutside))))

/-- Slots (R191, R192, R206), regeneration (R199), silence (R213), commit (R204, R205), repair (R226), digests (R224),
rotations (R191, R214, R221), and the floor's time limit (R46). -/
def Obligations.SlotsAndRotations : Prop :=
  ∀ s : State,
    (let x := s.span
     let at_ := s.slotNow
     x.state ≠ .none → x.state ≠ .joining → x.present.contains x.me = true → x.inSlot = false → x.slotAt ≠ some at_ →
     (at_ : Int) ≤ s.spanTick → s.spanTick < (at_ : Int) + x.slotLen →
      let t : State := { s with span := { x with
        inSlot := true
        slotAt := some at_
        slotWall := s.ledger.wall
        masterWall := if x.master = x.me then s.ledger.wall else x.masterWall
        masterTick := if x.master = x.me then at_ else x.masterTick
        windowOpen := x.reinHere && !x.forfeiting && x.state != .outside
        join := none } }
      exec .slotStart s = .next (match x.join.bind (fun j => j.desc) with
        | some id => t.refuse id .done 0
        | none => t)) ∧
    (s.span.inOrder = true → s.span.inSlot = true → s.span.windowOpen = true → s.span.forfeiting = false →
      s.span.reinHere = true → ((s.span.slotAt.getD 0 + s.span.slotLen : Nat) : Int) ≤ s.spanTick + 1 →
      let a := s.sendBatch.sendReports.takeMarks
      let body := a.makeRein s.span.regen false false
      let b := a.ringSend 1 0xFF body
      exec .windowClose s = .next { b with span := { b.span with
        rein := some body, slotTick := u64 body 24, inSlot := false, windowOpen := false
        reinHere := byteAt body 40 == s.span.me, forfeiting := false, regen := false
        own := b.span.own ++ b.span.later, later := [] } }) ∧
    (∀ r : Bytes, s.span.state = .outside → s.span.inSlot = true → s.span.reinHere = false → s.span.regen = false →
      s.span.rein = some r →
      let x := s.span
      let start := x.slotAt.getD 0
      exec .reinRegenerate s = .next (({ s with span := { x with
        rein := some (r.take 24 ++ toBe 8 start ++ slice r 32 8 ++ [BitVec.ofNat 8 x.me] ++ r.drop 41)
        slotTick := start, regen := true } } : State).bump 0x00020108)) ∧
    (∀ r : Bytes, s.span.inOrder = true → s.span.inSlot = true → s.span.reinHere = false → s.span.regen = false →
      s.span.rein = some r → s.span.splitOff = false →
      let x := s.span
      let start := x.slotAt.getD 0
      let prev := x.predecessor x.me
      let body := r.take 24 ++ toBe 8 start ++ slice r 32 8 ++ [BitVec.ofNat 8 x.me] ++ r.drop 41
      ((assoc x.silent prev).isSome = true → exec .reinRegenerate s = .next (({ s with span := { x with
        rein := some body, slotTick := start, regen := true, windowOpen := true } } : State).bump 0x00020108)) ∧
      ((assoc x.silent prev).isSome = false →
        x.batches.find? (fun b => b.origin == prev && !b.covered && b.complete && b.first == x.orderNext) = none →
        exec .reinRegenerate s = .next ((({ s with span := { x with
          rein := some body, slotTick := start, regen := true } } : State).bump 0x00020108).forfeitSlot s.tick))) ∧
    (∀ m : Nat, s.span.inOrder = true → s.span.present.contains m = true → m ≠ s.span.me →
      let n := min 3 ((assoc s.span.silent m).getD 0 + 1)
      let t := ({ s with span := { s.span with silent := insertSorted m n s.span.silent } } : State).watchSets
      (n < 3 → exec (.silentMember m) s = .next t) ∧
      (n = 3 → t.span.me = t.span.master → exec (.silentMember m) s = .next (t.orderRemove m))) ∧
    (∀ (first set : Nat) (b : Batch), b ∈ s.span.batches → b.first = first → b.committed.getLsbD set = true →
      (set = 0 ∨ b.origin = s.span.me) → exec (.batchCommit first set) s = .next s.advance.resumeFloors) ∧
    (∀ (first : Nat) (b : Batch), s.span.batches.find? (fun b =>
        b.first == first && b.covered && !b.complete && b.repair.elim false (fun r => r + 2 ≤ s.span.rotation)) = some b →
      exec (.batchRepairTimeout first) s = .next (((s.span.setsOfPart b).foldl State.fenceSet
        { s with span := { s.span with batches := s.span.batches.erase b } }).watchSets)) ∧
    (∀ r : Report, s.span.inOrder = true → s.span.reports = [r] → r.rot + 1 ≤ s.span.rotation →
      let t := s.decideDigest r
      exec .digestDecision s = .next ({ t with span := { t.span with
        reports := t.span.reports.filter (fun q => !r.sameAs q) } } : State).watchSets) ∧
    (s.span.inOrder = true → ((s.span.rotStart + s.span.rotationTicks : Nat) : Int) ≤ s.spanTick →
      (s.span.turned s.setVersions).present.contains s.span.me = true →
      exec .rotationStart s = .next (s.rotate (s.span.turned s.setVersions))) ∧
    (∀ (j : Joining) (id : Nat), s.span.state = .joining → s.span.rein = none → s.span.join = some j → j.desc = some id →
      exec .rotationStart s = .next s.openSpan) ∧
    (∀ (id t : Nat) (d : Desc), s.desc id = some d → d.phase = .floorWait → d.first = some t →
      t + s.span.rotationTicks + 2 ≤ s.tick → exec (.floorTimeout id) s = .next (s.refuse id .fenced 0))

/-- Probing (R188), wraps (R219) and unwraps (R220). -/
def Obligations.RingLanes : Prop :=
  ∀ s : State,
    (s.span.inOrder = true → s.span.wrapped = false → s.span.probeLast + 1000 ≤ s.span.rotation →
      exec .probePeriod s = .next (({ s with span := { s.span with probeLast := s.span.rotation } } : State).sendProbe)) ∧
    (s.span.state ≠ .none → s.span.brokenUp = false → exec (.ringLaneLoss .up) s = .next (((({ s with span := { s.span with
      laneUp := { lock := false, since := s.tick }, wrapped := true, brokenUp := true } } : State).raise 0x8101 0 0 0).bump
        0x00020120).sendProbe)) ∧
    (s.span.state ≠ .none → s.span.brokenDn = false → exec (.ringLaneLoss .dn) s = .next (((({ s with span := { s.span with
      laneDn := { lock := false, since := s.tick }, wrapped := true, brokenDn := true } } : State).raise 0x8101 1 0 0).bump
        0x00020120).sendProbe)) ∧
    (s.span.state = .none →
      exec (.ringLaneLoss .up) s = .next { s with span := { s.span with laneUp := { lock := false, since := s.tick } } } ∧
      exec (.ringLaneLoss .dn) s = .next { s with span := { s.span with laneDn := { lock := false, since := s.tick } } }) ∧
    (s.span.laneUp.lock = false →
      exec (.ringLaneLock .up) s = .next ({ s with span := { s.span with
        laneUp := { lock := true, since := s.tick } } }.trainLane 2)) ∧
    (s.span.laneDn.lock = false →
      exec (.ringLaneLock .dn) s = .next ({ s with span := { s.span with
        laneDn := { lock := true, since := s.tick } } }.trainLane 3)) ∧
    (s.span.wrapped = true →
      (s.span.brokenUp = true → s.span.laneUp.lock = true ∧ s.span.laneUp.since + 125000 ≤ s.tick) →
      (s.span.brokenDn = true → s.span.laneDn.lock = true ∧ s.span.laneDn.since + 125000 ≤ s.tick) →
      (∀ b ∈ s.span.batches, b.origin = s.span.master → b.rotation + 2 < s.span.rotation) →
      (s.span.inOrder = true → s.spanTick = (s.span.rotStart : Int)) →
      exec .ringUnwrap s = .next (({ s with span := { s.span with
        wrapped := false, brokenUp := false, brokenDn := false } } : State).sendProbe))
end

