-- ==== Sys2Proof/Laws/Lists.lean ====
section
/-! SUPPORT. The small lists of the state: association lists by rising key, word memory, counters. -/
namespace Sys2Proof.Laws
open Sys2Proof Sys2Proof.Machine

variable {α : Type}

@[simp] theorem assoc_nil (k : Nat) : assoc ([] : List (Nat × α)) k = none := rfl

theorem assoc_cons (p : Nat × α) (l : List (Nat × α)) (k : Nat) :
    assoc (p :: l) k = if p.1 = k then some p.2 else assoc l k := by
  by_cases h : p.1 = k <;> simp [assoc, h]

/-- What stands under a key after a value has been put under one. -/
theorem assoc_insertSorted (k j : Nat) (v : α) (l : List (Nat × α)) :
    assoc (insertSorted k v l) j = if k = j then some v else assoc l j := by
  induction l with
  | nil => simp [insertSorted, assoc_cons]
  | cons p rest ih =>
    obtain ⟨a, b⟩ := p
    simp only [insertSorted]
    split
    · simp [assoc_cons]
    · split
      · subst_vars
        by_cases hj : a = j <;> simp [assoc_cons, hj]
      · simp only [assoc_cons, ih]
        by_cases ha : a = j
        · have : ¬ k = j := by omega
          simp [ha, this]
        · simp [ha]

/-- What stands under a key once one has been erased. -/
theorem assoc_eraseKey (k j : Nat) (l : List (Nat × α)) :
    assoc (eraseKey k l) j = if k = j then none else assoc l j := by
  induction l with
  | nil => simp [eraseKey]
  | cons p rest ih =>
    simp only [eraseKey, List.filter_cons] at ih ⊢
    by_cases h : p.1 = k
    · simp only [h, bne_self_eq_false, Bool.false_eq_true, ↓reduceIte, ih, assoc_cons]
      split <;> simp_all
    · simp only [bne_iff_ne, ne_eq, h, not_false_eq_true, ↓reduceIte, assoc_cons, ih]
      by_cases hj : p.1 = j
      · have : ¬ k = j := by omega
        simp [hj, this]
      · simp [hj]

/-! ### A list that rises by key, every value of which is admitted -/

/-- The general canonical form. -/
def risingBy (ok : α → Bool) : List (Nat × α) → Bool
  | [] => true
  | [p] => ok p.2
  | p :: q :: rest => ok p.2 && p.1 < q.1 && risingBy ok (q :: rest)

theorem risingBy_tail {ok : α → Bool} {p : Nat × α} {l : List (Nat × α)} (h : risingBy ok (p :: l) = true) :
    risingBy ok l = true := by
  cases l with
  | nil => rfl
  | cons q rest => simp [risingBy] at h; exact h.2

theorem risingBy_cons {ok : α → Bool} {p : Nat × α} {l : List (Nat × α)} :
    risingBy ok (p :: l) = true ↔
      ok p.2 = true ∧ (∀ q, l.head? = some q → p.1 < q.1) ∧ risingBy ok l = true := by
  cases l with
  | nil => simp [risingBy]
  | cons q rest => simp [risingBy, and_assoc]

theorem risingBy_lt {ok : α → Bool} {p : Nat × α} {l : List (Nat × α)} (h : risingBy ok (p :: l) = true) :
    ∀ q ∈ l, p.1 < q.1 := by
  induction l generalizing p with
  | nil => simp
  | cons a rest ih =>
    obtain ⟨_, h2, h3⟩ := risingBy_cons.mp h
    intro q hq
    have ha := h2 a rfl
    rcases List.mem_cons.mp hq with rfl | hq
    · exact ha
    · exact Nat.lt_trans ha (ih h3 q hq)

theorem risingBy_insert {ok : α → Bool} (k : Nat) (v : α) (hv : ok v = true) (l : List (Nat × α))
    (h : risingBy ok l = true) : risingBy ok (insertSorted k v l) = true := by
  induction l with
  | nil => simpa [insertSorted, risingBy] using hv
  | cons p rest ih =>
    obtain ⟨a, b⟩ := p
    obtain ⟨h1, h2, h3⟩ := risingBy_cons.mp h
    simp only [insertSorted]
    split
    · exact risingBy_cons.mpr ⟨hv, by intro q hq; simp at hq; subst hq; assumption, h⟩
    · split
      · subst_vars
        exact risingBy_cons.mpr ⟨hv, h2, h3⟩
      · refine risingBy_cons.mpr ⟨h1, ?_, ih h3⟩
        intro q hq
        cases rest with
        | nil => simp [insertSorted] at hq; subst hq; simp; omega
        | cons c rest' =>
          obtain ⟨c1, c2⟩ := c
          have hc := h2 _ rfl
          simp only [insertSorted] at hq
          split at hq
          · simp at hq; subst hq; simp; omega
          · split at hq
            · simp at hq; subst hq; simp; omega
            · simp at hq; subst hq; exact hc

theorem risingBy_filter {ok : α → Bool} (f : Nat × α → Bool) (l : List (Nat × α)) (h : risingBy ok l = true) :
    risingBy ok (l.filter f) = true := by
  induction l with
  | nil => rfl
  | cons p rest ih =>
    obtain ⟨h1, _, h3⟩ := risingBy_cons.mp h
    simp only [List.filter_cons]
    split
    · refine risingBy_cons.mpr ⟨h1, ?_, ih h3⟩
      intro q hq
      exact risingBy_lt h q (List.mem_filter.mp (List.mem_of_mem_head? hq)).1
    · exact ih h3

theorem wordsWf_eq (l : List (Nat × Cell)) : wordsWf l = risingBy (fun c => c != Cell.zero) l := by
  induction l with
  | nil => rfl
  | cons p rest ih =>
    cases rest with
    | nil => rfl
    | cons q rest => simp only [wordsWf, risingBy, ih]

theorem countersWf_eq (l : List (Nat × Nat)) :
    Safety.countersWf l = risingBy (fun n => decide (0 < n) && decide (n < 2 ^ 48)) l := by
  induction l with
  | nil => rfl
  | cons p rest ih =>
    cases rest with
    | nil => rfl
    | cons q rest => simp only [Safety.countersWf, risingBy, ih, Bool.and_assoc]

/-! ### Word memory -/

/-- A word reads as it was last written, and every other word as before. -/
theorem readWord_writeWord (l : List (Nat × Cell)) (k j : Nat) (c : Cell) :
    readWord (writeWord l k c) j = if k = j then c else readWord l j := by
  unfold readWord writeWord
  split
  · rw [assoc_eraseKey]; split <;> simp_all
  · rw [assoc_insertSorted]; split <;> simp

/-- A write keeps the canonical form. -/
theorem writeWord_wf (l : List (Nat × Cell)) (k : Nat) (c : Cell) (h : wordsWf l = true) :
    wordsWf (writeWord l k c) = true := by
  rw [wordsWf_eq] at h ⊢
  unfold writeWord
  split
  · exact risingBy_filter _ _ h
  · exact risingBy_insert _ _ (by simpa using ‹¬c = Cell.zero›) _ h

/-- Part of word memory keeps the canonical form. -/
theorem filter_words_wf (l : List (Nat × Cell)) (f : Nat × Cell → Bool) (h : wordsWf l = true) :
    wordsWf (l.filter f) = true := by
  rw [wordsWf_eq] at h ⊢
  exact risingBy_filter _ _ h

/-! ### Counters -/

theorem insert_counter_wf (l : List (Nat × Nat)) (a v : Nat) (h : Safety.countersWf l = true) (h0 : 0 < v)
    (h1 : v < 2 ^ 48) : Safety.countersWf (insertSorted a v l) = true := by
  rw [countersWf_eq] at h ⊢
  exact risingBy_insert _ _ (by simp only [h0, h1, decide_true, Bool.and_self]) _ h

theorem filter_counters_wf (l : List (Nat × Nat)) (f : Nat × Nat → Bool) (h : Safety.countersWf l = true) :
    Safety.countersWf (l.filter f) = true := by
  rw [countersWf_eq] at h ⊢
  exact risingBy_filter _ _ h

end Sys2Proof.Laws
end

