-- ==== Sys2Proof/Laws/Kept.lean ====
section
/-! SUPPORT. What every command keeps: the queue, the fused identity, the 32 tenant ids, and the canonical forms of word
memory and counters. One lemma for each operation, in the form that backward chaining uses. -/
namespace Sys2Proof.Laws
open Sys2Proof Sys2Proof.Machine

/-- From `r` to `s` the queue, the identity and the number of tenants have stayed, and the canonical forms have been kept. -/
def Kept (r s : State) : Prop :=
  s.pending = r.pending ∧ s.ident = r.ident ∧ s.tenants.length = r.tenants.length ∧
    (wordsWf r.media.words = true → wordsWf s.media.words = true) ∧
    (Safety.countersWf r.counters = true → Safety.countersWf s.counters = true)

/-- An outcome that, where it is a next state, has kept them. -/
def KeptO (r : State) (o : Host.Outcome State Fault Refusal) : Prop := ∀ t, o = .next t → Kept r t

theorem Kept.refl (s : State) : Kept s s := ⟨rfl, rfl, rfl, id, id⟩

theorem Kept.trans {a b c : State} (h : Kept a b) (k : Kept b c) : Kept a c :=
  ⟨k.1.trans h.1, k.2.1.trans h.2.1, k.2.2.1.trans h.2.2.1, fun w => k.2.2.2.1 (h.2.2.2.1 w),
    fun w => k.2.2.2.2 (h.2.2.2.2 w)⟩

theorem keptO_next {r s : State} (h : Kept r s) : KeptO r (.next s) := fun t e => by cases e; exact h

theorem keptO_fault {r : State} (f : Fault) : KeptO r (.fault f) := fun t e => by cases e

/-- An update of other fields, or of media with its words kept, or of tenants with their number kept. -/
theorem kept_mk {r t : State} {tn : List Tenant} {md : Media} {x_tick x_portA x_portB x_spaces x_descs x_nextDesc x_segs x_creating x_removing x_ledger x_awl x_cinch x_secure x_update x_power x_boot x_smbus x_events x_span x_latches x_free}
    (h : Kept r t) (ht : tn.length = t.tenants.length) (hm : md.words = t.media.words) :
    Kept r ⟨t.pending, x_tick, t.ident, x_portA, x_portB, x_spaces, x_descs, x_nextDesc, x_segs, tn, x_creating, x_removing, x_ledger, x_awl, x_cinch, md, x_secure, x_update, x_power, x_boot, x_smbus, x_events, x_span, t.counters, x_latches, x_free⟩ :=
  ⟨h.1, h.2.1, ht.trans h.2.2.1, fun w => by rw [show md.words = t.media.words from hm]; exact h.2.2.2.1 w, h.2.2.2.2⟩

theorem keptO_ite {r : State} {a b : Host.Outcome State Fault Refusal} {c : Prop} [Decidable c] (h : KeptO r a)
    (k : KeptO r b) : KeptO r (if c then a else b) := by
  split <;> assumption

theorem kept_ite {r a b : State} {c : Prop} [Decidable c] (h : Kept r a) (k : Kept r b) : Kept r (if c then a else b) := by
  split <;> assumption

theorem kept_elim {α : Type} {r : State} (o : Option α) (a : State) (f : α → State) (h : Kept r a)
    (hf : ∀ x, Kept r (f x)) : Kept r (o.elim a f) := by
  cases o with
  | none => exact h
  | some x => exact hf x

theorem kept_foldl {α : Type} {r : State} (f : State → α → State) (l : List α) (s : State) (h : Kept r s)
    (hf : ∀ x a, Kept r x → Kept r (f x a)) : Kept r (l.foldl f s) := by
  induction l generalizing s with
  | nil => exact h
  | cons a rest ih => exact ih _ (hf s a h)

/-- The same where a fold carries another value beside the state. -/
theorem kept_foldl_fst {α β : Type} {r : State} (f : State × β → α → State × β) (l : List α) (p : State × β)
    (h : Kept r p.1) (hf : ∀ p a, Kept r p.1 → Kept r (f p a).1) : Kept r (l.foldl f p).1 := by
  induction l generalizing p with
  | nil => exact h
  | cons a rest ih => exact ih _ (hf p a h)

end Sys2Proof.Laws
end

