-- ==== Sys2Proof/Laws/KeptOps.lean ====
section
/-! SUPPORT. What every operation of Machine/Ops.lean keeps. -/
namespace Sys2Proof.Laws
open Sys2Proof Sys2Proof.Machine

theorem State.modPort_kept {s0 : State} {s : State} {p : Port} {f : PortState → PortState} (h : Kept s0 s) :
    Kept s0 (State.modPort s p f) := by
  unfold State.modPort
  try dsimp only
  repeat' first
    | with_reducible assumption
    | split
    | with_reducible rfl
    | simp only [List.length_modify, List.length_map, List.length_mapIdx]
    | with_reducible refine kept_mk (t := _) ?_ ?_ ?_

theorem State.modTenant_kept {s0 : State} {s : State} {t : Nat} {f : Tenant → Tenant} (h : Kept s0 s) :
    Kept s0 (State.modTenant s t f) := by
  unfold State.modTenant
  try dsimp only
  repeat' first
    | with_reducible assumption
    | with_reducible rfl
    | simp only [List.length_modify, List.length_map, List.length_mapIdx]
    | with_reducible refine kept_mk (t := _) ?_ ?_ ?_

theorem State.modDesc_kept {s0 : State} {s : State} {id : Nat} {f : Desc → Desc} (h : Kept s0 s) :
    Kept s0 (State.modDesc s id f) := by
  unfold State.modDesc
  try dsimp only
  repeat' first
    | with_reducible assumption
    | with_reducible apply kept_ite
    | (with_reducible intro; with_reducible intros)
    | with_reducible rfl
    | simp only [List.length_modify, List.length_map, List.length_mapIdx]
    | with_reducible refine kept_mk (t := _) ?_ ?_ ?_

theorem State.dropDesc_kept {s0 : State} {s : State} {id : Nat} (h : Kept s0 s) :
    Kept s0 (State.dropDesc s id) := by
  unfold State.dropDesc
  try dsimp only
  repeat' first
    | with_reducible assumption
    | (with_reducible intro; with_reducible intros)
    | with_reducible rfl
    | simp only [List.length_modify, List.length_map, List.length_mapIdx]
    | with_reducible refine kept_mk (t := _) ?_ ?_ ?_

theorem State.setPhase_kept {s0 : State} {s : State} {id : Nat} {ph : Phase} (h : Kept s0 s) :
    Kept s0 (State.setPhase s id ph) := by
  unfold State.setPhase
  try dsimp only
  repeat' first
    | with_reducible assumption
    | with_reducible apply State.modDesc_kept
    | (with_reducible intro; with_reducible intros)
    | with_reducible rfl
    | simp only [List.length_modify, List.length_map, List.length_mapIdx]
    | with_reducible refine kept_mk (t := _) ?_ ?_ ?_

theorem State.fresh_kept {s0 : State} {s : State} (h : Kept s0 s) :
    Kept s0 (State.fresh s).2 := by
  unfold State.fresh
  try dsimp only
  repeat' first
    | with_reducible assumption
    | with_reducible rfl
    | simp only [List.length_modify, List.length_map, List.length_mapIdx]
    | with_reducible refine kept_mk (t := _) ?_ ?_ ?_

theorem State.bumpBy_kept {s0 : State} {s : State} {addr n : Nat} (h : Kept s0 s) : Kept s0 (s.bumpBy addr n) := by
  unfold State.bumpBy
  have hv : min (s.counter addr + n) (2 ^ 48 - 1) < 2 ^ 48 := Nat.lt_of_le_of_lt (Nat.min_le_right _ _) (by decide)
  generalize min (s.counter addr + n) (2 ^ 48 - 1) = v at hv
  dsimp only
  split
  · exact h
  · exact ⟨h.1, h.2.1, h.2.2.1, h.2.2.2.1, fun w => insert_counter_wf _ _ _ (h.2.2.2.2 w) (Nat.pos_of_ne_zero ‹_›) hv⟩

theorem State.bump_kept {s0 : State} {s : State} {addr : Nat} (h : Kept s0 s) :
    Kept s0 (State.bump s addr) := by
  unfold State.bump
  try dsimp only
  repeat' first
    | with_reducible assumption
    | with_reducible apply State.bumpBy_kept

theorem State.clearCounter_kept {s0 : State} {s : State} {addr : Nat} (h : Kept s0 s) : Kept s0 (s.clearCounter addr) :=
  ⟨h.1, h.2.1, h.2.2.1, h.2.2.2.1, fun w => filter_counters_wf _ _ (h.2.2.2.2 w)⟩

theorem State.setLatch_kept {s0 : State} {s : State} {path : Path} {addr : Nat} {v : Nat} (h : Kept s0 s) :
    Kept s0 (State.setLatch s path addr v) := by
  unfold State.setLatch
  try dsimp only
  repeat' first
    | with_reducible assumption
    | (with_reducible intro; with_reducible intros)
    | with_reducible rfl
    | simp only [List.length_modify, List.length_map, List.length_mapIdx]
    | with_reducible refine kept_mk (t := _) ?_ ?_ ?_

theorem State.bumpPort_kept {s0 : State} {s : State} {p : Port} {off : Nat} (h : Kept s0 s) :
    Kept s0 (State.bumpPort s p off) := by
  unfold State.bumpPort
  try dsimp only
  repeat' first
    | with_reducible assumption
    | with_reducible apply State.bump_kept

theorem State.bumpTnt_kept {s0 : State} {s : State} {t : Nat} {off : Nat} (h : Kept s0 s) :
    Kept s0 (State.bumpTnt s t off) := by
  unfold State.bumpTnt
  try dsimp only
  repeat' first
    | with_reducible assumption
    | with_reducible apply State.bump_kept

theorem State.bumpTkp_kept {s0 : State} {s : State} {t : Nat} {off : Nat} (h : Kept s0 s) :
    Kept s0 (State.bumpTkp s t off) := by
  unfold State.bumpTkp
  try dsimp only
  repeat' first
    | with_reducible assumption
    | with_reducible apply State.bump_kept

theorem State.bumpMed_kept {s0 : State} {s : State} {off : Nat} (h : Kept s0 s) :
    Kept s0 (State.bumpMed s off) := by
  unfold State.bumpMed
  try dsimp only
  repeat' first
    | with_reducible assumption
    | with_reducible apply State.bump_kept

theorem State.modSpace_kept {s0 : State} {s : State} {fn : Nat} {sp : Nat} {f : Space → Space} (h : Kept s0 s) :
    Kept s0 (State.modSpace s fn sp f) := by
  unfold State.modSpace
  try dsimp only
  repeat' first
    | with_reducible assumption
    | (with_reducible intro; with_reducible intros)
    | with_reducible rfl
    | simp only [List.length_modify, List.length_map, List.length_mapIdx]
    | with_reducible refine kept_mk (t := _) ?_ ?_ ?_

theorem State.restartSpaces_kept {s0 : State} {s : State} {fn : Nat} (h : Kept s0 s) :
    Kept s0 (State.restartSpaces s fn) := by
  unfold State.restartSpaces
  try dsimp only
  repeat' first
    | with_reducible assumption
    | with_reducible apply State.fresh_kept
    | (with_reducible intro; with_reducible intros)
    | with_reducible rfl
    | simp only [List.length_modify, List.length_map, List.length_mapIdx]
    | with_reducible refine kept_mk (t := _) ?_ ?_ ?_

theorem State.raise_kept {s0 : State} {s : State} {code : Nat} {a : Nat} {b : Nat} {c : Nat} (h : Kept s0 s) :
    Kept s0 (State.raise s code a b c) := by
  unfold State.raise
  try dsimp only
  repeat' first
    | with_reducible assumption
    | with_reducible apply kept_ite
    | with_reducible rfl
    | simp only [List.length_modify, List.length_map, List.length_mapIdx]
    | with_reducible refine kept_mk (t := _) ?_ ?_ ?_

theorem State.causeReset_kept {s0 : State} {s : State} {type : Nat} {cause : Nat} (h : Kept s0 s) :
    Kept s0 (State.causeReset s type cause) := by
  unfold State.causeReset
  try dsimp only
  repeat' first
    | with_reducible assumption
    | with_reducible apply State.bump_kept
    | with_reducible apply kept_ite
    | split
    | with_reducible rfl
    | simp only [List.length_modify, List.length_map, List.length_mapIdx]
    | with_reducible refine kept_mk (t := _) ?_ ?_ ?_

theorem State.adaptLanes_kept {s0 : State} {s : State} (h : Kept s0 s) :
    Kept s0 (State.adaptLanes s) := by
  unfold State.adaptLanes
  try dsimp only
  repeat' first
    | with_reducible assumption
    | with_reducible apply kept_ite
    | (with_reducible intro; with_reducible intros)
    | with_reducible rfl
    | simp only [List.length_modify, List.length_map, List.length_mapIdx]
    | with_reducible refine kept_mk (t := _) ?_ ?_ ?_

theorem State.trainLane_kept {s0 : State} {s : State} {n : Nat} (h : Kept s0 s) :
    Kept s0 (State.trainLane s n) := by
  unfold State.trainLane
  try dsimp only
  repeat' first
    | with_reducible assumption
    | with_reducible rfl
    | simp only [List.length_modify, List.length_map, List.length_mapIdx]
    | with_reducible refine kept_mk (t := _) ?_ ?_ ?_

end Sys2Proof.Laws
end

