-- ==== Sys2Proof/Laws/KeptWire.lean ====
section
/-! SUPPORT. What every operation of Machine/Wire.lean keeps. -/
namespace Sys2Proof.Laws
open Sys2Proof Sys2Proof.Machine

theorem State.answerWith_kept {s0 : State} {s : State} {id : Nat} {st : Status} {param : Nat} {opts : Bytes} {key : Bytes} {value : Bytes} {resets : Option (Nat × Nat)} (h : Kept s0 s) :
    Kept s0 (State.answerWith s id st param opts key value resets) := by
  unfold State.answerWith
  try dsimp only
  repeat' first
    | with_reducible assumption
    | with_reducible apply State.modPort_kept
    | with_reducible apply State.modDesc_kept
    | with_reducible apply kept_ite
    | (with_reducible intro; with_reducible intros)
    | split
    | with_reducible rfl
    | simp only [List.length_modify, List.length_map, List.length_mapIdx]
    | with_reducible refine kept_mk (t := _) ?_ ?_ ?_

theorem State.answer_kept {s0 : State} {s : State} {id : Nat} {st : Status} {param : Nat} {opts : Bytes} {key : Bytes} {value : Bytes} (h : Kept s0 s) :
    Kept s0 (State.answer s id st param opts key value) := by
  unfold State.answer
  try dsimp only
  repeat' first
    | with_reducible assumption
    | with_reducible apply State.answerWith_kept
    | with_reducible apply kept_ite
    | split

theorem State.refuse_kept {s0 : State} {s : State} {id : Nat} {st : Status} {param : Nat} (h : Kept s0 s) :
    Kept s0 (State.refuse s id st param) := by
  unfold State.refuse
  try dsimp only
  repeat' first
    | with_reducible assumption
    | with_reducible apply State.answer_kept

theorem State.finish_kept {s0 : State} {s : State} {id : Nat} {param : Nat} (h : Kept s0 s) :
    Kept s0 (State.finish s id param) := by
  unfold State.finish
  try dsimp only
  repeat' first
    | with_reducible assumption
    | with_reducible apply State.answer_kept

theorem State.accept_kept {s0 : State} {s : State} {id : Nat} {ph : Phase} (h : Kept s0 s) :
    Kept s0 (State.accept s id ph) := by
  unfold State.accept
  try dsimp only
  repeat' first
    | with_reducible assumption
    | with_reducible apply State.modPort_kept
    | with_reducible apply State.modDesc_kept
    | with_reducible apply kept_ite
    | (with_reducible intro; with_reducible intros)
    | split
    | with_reducible rfl
    | simp only [List.length_modify, List.length_map, List.length_mapIdx]
    | with_reducible refine kept_mk (t := _) ?_ ?_ ?_

theorem State.pushBack_kept {s0 : State} {s : State} {id : Nat} {retry : Nat} (h : Kept s0 s) :
    Kept s0 (State.pushBack s id retry) := by
  unfold State.pushBack
  try dsimp only
  repeat' first
    | with_reducible assumption
    | with_reducible apply State.modPort_kept
    | with_reducible apply State.dropDesc_kept
    | with_reducible apply State.bump_kept
    | with_reducible apply kept_ite
    | (with_reducible intro; with_reducible intros)
    | split
    | with_reducible rfl
    | simp only [List.length_modify, List.length_map, List.length_mapIdx]
    | with_reducible refine kept_mk (t := _) ?_ ?_ ?_

theorem State.answerBusy_kept {s0 : State} {s : State} {id : Nat} {param : Nat} (h : Kept s0 s) :
    Kept s0 (State.answerBusy s id param) := by
  unfold State.answerBusy
  try dsimp only
  repeat' first
    | with_reducible assumption
    | with_reducible apply State.answer_kept

theorem State.busyParam_kept {s0 : State} {s : State} {t : Nat} (h : Kept s0 s) :
    Kept s0 (State.busyParam s t).2 := by
  unfold State.busyParam
  try dsimp only
  repeat' first
    | with_reducible assumption
    | with_reducible apply State.modTenant_kept
    | with_reducible apply kept_elim
    | (with_reducible intro; with_reducible intros)
    | with_reducible rfl
    | simp only [List.length_modify, List.length_map, List.length_mapIdx]
    | with_reducible refine kept_mk (t := _) ?_ ?_ ?_

end Sys2Proof.Laws
end

