-- ==== Sys2Proof/Laws/KeptChecks.lean ====
section
/-! SUPPORT. What every operation of Machine/Checks.lean keeps. -/
namespace Sys2Proof.Laws
open Sys2Proof Sys2Proof.Machine

theorem State.serve_kept {s0 : State} {s : State} {id : Nat} {op : Nat} {act : Desc → State → State} (h : Kept s0 s) (hf : ∀ v0 v1, Kept s0 v1 → Kept s0 (act v0 v1)) :
    Kept s0 (State.serve s id op act) := by
  unfold State.serve
  try dsimp only
  repeat' first
    | with_reducible assumption
    | with_reducible apply State.refuse_kept
    | with_reducible apply hf
    | with_reducible apply kept_ite
    | split

theorem State.countMgmt_kept {s0 : State} {s : State} {fn : Nat} (h : Kept s0 s) :
    Kept s0 (State.countMgmt s fn) := by
  unfold State.countMgmt
  try dsimp only
  repeat' first
    | with_reducible assumption
    | with_reducible apply State.bump_kept
    | with_reducible apply kept_ite

theorem State.countBack_kept {s0 : State} {s : State} {fn : Nat} {off : Nat} (h : Kept s0 s) :
    Kept s0 (State.countBack s fn off) := by
  unfold State.countBack
  try dsimp only
  repeat' first
    | with_reducible assumption
    | with_reducible apply State.bumpTnt_kept
    | with_reducible apply State.countMgmt_kept
    | with_reducible apply kept_ite

end Sys2Proof.Laws
end

