-- ==== Sys2Proof/Laws/KeptReceive.lean ====
section
/-! SUPPORT. What every operation of Machine/Receive.lean keeps. -/
namespace Sys2Proof.Laws
open Sys2Proof Sys2Proof.Machine

theorem State.turnAway_kept {s0 : State} {s : State} {p : Port} {r : Req} {space : Nat} {ext : Nat} {mac : Option Bytes} {st : Status} {param : Nat} {keepTag : Bool} (h : Kept s0 s) :
    Kept s0 (State.turnAway s p r space ext mac st param keepTag) := by
  unfold State.turnAway
  try dsimp only
  repeat' first
    | with_reducible assumption
    | with_reducible apply State.modPort_kept
    | with_reducible apply kept_ite
    | (with_reducible intro; with_reducible intros)
    | with_reducible rfl
    | simp only [List.length_modify, List.length_map, List.length_mapIdx]
    | with_reducible refine kept_mk (t := _) ?_ ?_ ?_

theorem State.beginTransfer_kept {s0 : State} {s : State} {d : Desc} (h : Kept s0 s) :
    Kept s0 (State.beginTransfer s d) := by
  unfold State.beginTransfer
  try dsimp only
  repeat' first
    | with_reducible assumption
    | with_reducible apply State.modPort_kept
    | with_reducible apply State.modDesc_kept
    | with_reducible apply State.refuse_kept
    | (with_reducible intro; with_reducible intros)
    | split
    | with_reducible rfl
    | simp only [List.length_modify, List.length_map, List.length_mapIdx]
    | with_reducible refine kept_mk (t := _) ?_ ?_ ?_

theorem State.orders10on_kept {s0 : State} {s : State} {p : Port} {r : Req} {space : Nat} {ext : Nat} {mac : Option Bytes} {instant : Nat} (h : Kept s0 s) :
    Kept s0 (State.orders10on s p r space ext mac instant) := by
  unfold State.orders10on
  try dsimp only
  repeat' first
    | with_reducible assumption
    | with_reducible apply State.setPhase_kept
    | with_reducible apply State.countBack_kept
    | with_reducible apply State.turnAway_kept
    | with_reducible apply State.beginTransfer_kept
    | with_reducible apply kept_ite
    | split
    | with_reducible rfl
    | simp only [List.length_modify, List.length_map, List.length_mapIdx]
    | with_reducible refine kept_mk (t := _) ?_ ?_ ?_

theorem State.meterRequest_kept {s0 : State} {s : State} {fn : Nat} (h : Kept s0 s) :
    Kept s0 (State.meterRequest s fn) := by
  unfold State.meterRequest
  try dsimp only
  repeat' first
    | with_reducible assumption
    | with_reducible apply State.modTenant_kept
    | with_reducible apply kept_ite
    | (with_reducible intro; with_reducible intros)
    | with_reducible rfl
    | simp only [List.length_modify, List.length_map, List.length_mapIdx]
    | with_reducible refine kept_mk (t := _) ?_ ?_ ?_

theorem State.orders4on_kept {s0 : State} {s : State} {p : Port} {r : Req} {space : Nat} {ext : Nat} {mac : Option Bytes} {instant : Nat} (h : Kept s0 s) :
    Kept s0 (State.orders4on s p r space ext mac instant) := by
  unfold State.orders4on
  try dsimp only
  repeat' first
    | with_reducible assumption
    | with_reducible apply State.busyParam_kept
    | with_reducible apply State.turnAway_kept
    | with_reducible apply State.orders10on_kept
    | with_reducible apply State.meterRequest_kept
    | with_reducible apply kept_ite
    | split

theorem State.register_kept {s0 : State} {s : State} {p : Port} {r : Req} {instant : Nat} (h : Kept s0 s) :
    Kept s0 (State.register s p r instant) := by
  unfold State.register
  try dsimp only
  repeat' first
    | with_reducible assumption
    | with_reducible apply State.modPort_kept
    | with_reducible apply kept_ite
    | (with_reducible intro; with_reducible intros)
    | with_reducible rfl
    | simp only [List.length_modify, List.length_map, List.length_mapIdx]
    | with_reducible refine kept_mk (t := _) ?_ ?_ ?_

theorem State.countAuthFail_kept {s0 : State} {s : State} {fn : Nat} (h : Kept s0 s) :
    Kept s0 (State.countAuthFail s fn) := by
  unfold State.countAuthFail
  try dsimp only
  repeat' first
    | with_reducible assumption
    | with_reducible apply State.bump_kept
    | with_reducible apply State.bumpTkp_kept
    | with_reducible apply kept_ite

theorem State.decide_kept {s0 : State} {s : State} {p : Port} {r : Req} {instant : Nat} (h : Kept s0 s) :
    Kept s0 (State.decide s p r instant) := by
  unfold State.decide
  try dsimp only
  repeat' first
    | with_reducible assumption
    | with_reducible apply State.fresh_kept
    | with_reducible apply State.modSpace_kept
    | with_reducible apply State.countMgmt_kept
    | with_reducible apply State.turnAway_kept
    | with_reducible apply State.orders4on_kept
    | with_reducible apply State.register_kept
    | with_reducible apply State.countAuthFail_kept
    | with_reducible apply kept_ite
    | (with_reducible intro; with_reducible intros)
    | split
    | with_reducible rfl
    | simp only [List.length_modify, List.length_map, List.length_mapIdx]
    | with_reducible refine kept_mk (t := _) ?_ ?_ ?_

theorem State.sortFrame_kept {s0 : State} {s : State} {p : Port} {b : Bytes} {first : Nat} {instant : Nat} (h : Kept s0 s) :
    Kept s0 (State.sortFrame s p b first instant) := by
  unfold State.sortFrame
  try dsimp only
  repeat' first
    | with_reducible assumption
    | with_reducible apply State.modPort_kept
    | with_reducible apply State.bumpPort_kept
    | with_reducible apply State.decide_kept
    | with_reducible apply kept_ite
    | (with_reducible intro; with_reducible intros)
    | split
    | with_reducible rfl
    | simp only [List.length_modify, List.length_map, List.length_mapIdx]
    | with_reducible refine kept_mk (t := _) ?_ ?_ ?_

theorem State.frameArrives_kept {s0 : State} {s : State} {p : Port} {frame : Bytes} {pos : Nat} {dur : Nat} (h : Kept s0 s) :
    Kept s0 (State.frameArrives s p frame pos dur) := by
  unfold State.frameArrives
  try dsimp only
  repeat' first
    | with_reducible assumption
    | with_reducible apply State.modPort_kept
    | with_reducible apply State.bumpPort_kept
    | with_reducible apply State.sortFrame_kept
    | with_reducible apply kept_ite
    | (with_reducible intro; with_reducible intros)
    | split

theorem execHostFrameReceive_kept {s0 : State} {port : Port} {frame : Bytes} {pos : Nat} {dur : Nat} {s : State} (h : Kept s0 s) :
    KeptO s0 (execHostFrameReceive port frame pos dur s) := by
  unfold execHostFrameReceive
  try dsimp only
  repeat' first
    | with_reducible assumption
    | with_reducible apply State.frameArrives_kept
    | with_reducible apply keptO_next
    | with_reducible apply keptO_fault
    | with_reducible apply keptO_ite

theorem execDurableCeilingWrite_kept {s0 : State} {fn : Nat} {space : Nat} {s : State} (h : Kept s0 s) :
    KeptO s0 (execDurableCeilingWrite fn space s) := by
  unfold execDurableCeilingWrite
  try dsimp only
  repeat' first
    | with_reducible assumption
    | with_reducible apply State.modSpace_kept
    | with_reducible apply keptO_next
    | with_reducible apply keptO_fault
    | with_reducible apply keptO_ite
    | (with_reducible intro; with_reducible intros)
    | split
    | with_reducible rfl
    | simp only [List.length_modify, List.length_map, List.length_mapIdx]
    | with_reducible refine kept_mk (t := _) ?_ ?_ ?_

theorem State.refuseSegs_kept {s0 : State} {s : State} {d : Desc} {st : Status} (h : Kept s0 s) :
    Kept s0 (State.refuseSegs s d st) := by
  unfold State.refuseSegs
  try dsimp only
  repeat' first
    | with_reducible assumption
    | with_reducible apply State.modPort_kept
    | with_reducible apply kept_foldl
    | (with_reducible intro; with_reducible intros)
    | with_reducible rfl
    | simp only [List.length_modify, List.length_map, List.length_mapIdx]
    | with_reducible refine kept_mk (t := _) ?_ ?_ ?_

theorem State.discardTransfer_kept {s0 : State} {s : State} {d : Desc} {st : Status} (h : Kept s0 s) :
    Kept s0 (State.discardTransfer s d st) := by
  unfold State.discardTransfer
  try dsimp only
  repeat' first
    | with_reducible assumption
    | with_reducible apply State.bumpTnt_kept
    | with_reducible apply State.refuseSegs_kept
    | with_reducible apply kept_ite

theorem State.segmentTaken_kept {s0 : State} {s : State} {id : Nat} (h : Kept s0 s) :
    Kept s0 (State.segmentTaken s id) := by
  unfold State.segmentTaken
  try dsimp only
  repeat' first
    | with_reducible assumption
    | with_reducible apply State.modPort_kept
    | with_reducible apply State.modDesc_kept
    | with_reducible apply State.setPhase_kept
    | with_reducible apply State.refuseSegs_kept
    | with_reducible apply State.discardTransfer_kept
    | with_reducible apply kept_ite
    | (with_reducible intro; with_reducible intros)
    | split
    | with_reducible rfl
    | simp only [List.length_modify, List.length_map, List.length_mapIdx]
    | with_reducible refine kept_mk (t := _) ?_ ?_ ?_

theorem execSegmentContinue_kept {s0 : State} {id : Nat} {s : State} (h : Kept s0 s) :
    KeptO s0 (execSegmentContinue id s) := by
  unfold execSegmentContinue
  try dsimp only
  repeat' first
    | with_reducible assumption
    | with_reducible apply State.segmentTaken_kept
    | with_reducible apply keptO_next
    | with_reducible apply keptO_fault
    | with_reducible apply keptO_ite

theorem execSegmentLate_kept {s0 : State} {id : Nat} {s : State} (h : Kept s0 s) :
    KeptO s0 (execSegmentLate id s) := by
  unfold execSegmentLate
  try dsimp only
  repeat' first
    | with_reducible assumption
    | with_reducible apply State.refuse_kept
    | with_reducible apply State.discardTransfer_kept
    | with_reducible apply keptO_next
    | with_reducible apply keptO_fault
    | with_reducible apply keptO_ite
    | with_reducible apply kept_ite
    | split

end Sys2Proof.Laws
end

