-- ==== Sys2Proof/Laws/KeptPorts.lean ====
section
/-! SUPPORT. What every operation of Machine/Ports.lean keeps. -/
namespace Sys2Proof.Laws
open Sys2Proof Sys2Proof.Machine

theorem State.linkFalls_kept {s0 : State} {s : State} {p : Port} {rxCut : Bool} {txCut : Bool} (h : Kept s0 s) :
    Kept s0 (State.linkFalls s p rxCut txCut) := by
  unfold State.linkFalls
  try dsimp only
  repeat' first
    | with_reducible assumption
    | with_reducible apply State.modPort_kept
    | with_reducible apply State.bumpPort_kept
    | with_reducible apply State.raise_kept
    | with_reducible apply kept_ite
    | (with_reducible intro; with_reducible intros)
    | split
    | with_reducible rfl
    | simp only [List.length_modify, List.length_map, List.length_mapIdx]
    | with_reducible refine kept_mk (t := _) ?_ ?_ ?_

theorem execAutoNegotiationComplete_kept {s0 : State} {port : Port} {partner : Partner} {s : State} (h : Kept s0 s) :
    KeptO s0 (execAutoNegotiationComplete port partner s) := by
  unfold execAutoNegotiationComplete
  try dsimp only
  repeat' first
    | with_reducible assumption
    | with_reducible apply State.modPort_kept
    | with_reducible apply keptO_next
    | with_reducible apply keptO_fault
    | with_reducible apply keptO_ite
    | with_reducible apply kept_ite
    | (with_reducible intro; with_reducible intros)
    | split
    | with_reducible rfl
    | simp only [List.length_modify, List.length_map, List.length_mapIdx]
    | with_reducible refine kept_mk (t := _) ?_ ?_ ?_

theorem execLinkUp_kept {s0 : State} {port : Port} {s : State} (h : Kept s0 s) :
    KeptO s0 (execLinkUp port s) := by
  unfold execLinkUp
  try dsimp only
  repeat' first
    | with_reducible assumption
    | with_reducible apply State.modPort_kept
    | with_reducible apply State.raise_kept
    | with_reducible apply State.trainLane_kept
    | with_reducible apply keptO_next
    | with_reducible apply keptO_fault
    | with_reducible apply keptO_ite
    | with_reducible apply kept_ite
    | (with_reducible intro; with_reducible intros)
    | split
    | with_reducible rfl
    | simp only [List.length_modify, List.length_map, List.length_mapIdx]
    | with_reducible refine kept_mk (t := _) ?_ ?_ ?_

theorem execLinkUpTimeout_kept {s0 : State} {port : Port} {s : State} (h : Kept s0 s) :
    KeptO s0 (execLinkUpTimeout port s) := by
  unfold execLinkUpTimeout
  try dsimp only
  repeat' first
    | with_reducible assumption
    | with_reducible apply State.modPort_kept
    | with_reducible apply keptO_next
    | with_reducible apply keptO_fault
    | with_reducible apply keptO_ite
    | with_reducible apply kept_ite
    | (with_reducible intro; with_reducible intros)
    | split

theorem execLinkDown_kept {s0 : State} {port : Port} {rxCut : Bool} {txCut : Bool} {s : State} (h : Kept s0 s) :
    KeptO s0 (execLinkDown port rxCut txCut s) := by
  unfold execLinkDown
  try dsimp only
  repeat' first
    | with_reducible assumption
    | with_reducible apply State.linkFalls_kept
    | with_reducible apply keptO_next
    | with_reducible apply keptO_fault
    | with_reducible apply keptO_ite
    | with_reducible apply kept_ite

theorem State.anRestarts_kept {s0 : State} {s : State} {port : Port} (h : Kept s0 s) :
    Kept s0 (State.anRestarts s port) := by
  unfold State.anRestarts
  try dsimp only
  repeat' first
    | with_reducible assumption
    | with_reducible apply State.modPort_kept
    | with_reducible apply State.linkFalls_kept
    | with_reducible apply kept_ite
    | (with_reducible intro; with_reducible intros)
    | with_reducible rfl
    | simp only [List.length_modify, List.length_map, List.length_mapIdx]
    | with_reducible refine kept_mk (t := _) ?_ ?_ ?_

theorem execAnRestart_kept {s0 : State} {port : Port} {s : State} (h : Kept s0 s) :
    KeptO s0 (execAnRestart port s) := by
  unfold execAnRestart
  try dsimp only
  repeat' first
    | with_reducible assumption
    | with_reducible apply State.anRestarts_kept
    | with_reducible apply keptO_next
    | with_reducible apply keptO_fault
    | with_reducible apply keptO_ite

theorem execReceiveLpiEnter_kept {s0 : State} {port : Port} {s : State} (h : Kept s0 s) :
    KeptO s0 (execReceiveLpiEnter port s) := by
  unfold execReceiveLpiEnter
  try dsimp only
  repeat' first
    | with_reducible assumption
    | with_reducible apply State.modPort_kept
    | with_reducible apply State.bumpPort_kept
    | with_reducible apply kept_elim
    | with_reducible apply keptO_next
    | with_reducible apply keptO_fault
    | with_reducible apply keptO_ite
    | with_reducible apply kept_ite
    | (with_reducible intro; with_reducible intros)
    | with_reducible rfl
    | simp only [List.length_modify, List.length_map, List.length_mapIdx]
    | with_reducible refine kept_mk (t := _) ?_ ?_ ?_

theorem execReceiveLpiExit_kept {s0 : State} {port : Port} {s : State} (h : Kept s0 s) :
    KeptO s0 (execReceiveLpiExit port s) := by
  unfold execReceiveLpiExit
  try dsimp only
  repeat' first
    | with_reducible assumption
    | with_reducible apply State.modPort_kept
    | with_reducible apply keptO_next
    | with_reducible apply keptO_fault
    | with_reducible apply keptO_ite
    | (with_reducible intro; with_reducible intros)
    | with_reducible rfl
    | simp only [List.length_modify, List.length_map, List.length_mapIdx]
    | with_reducible refine kept_mk (t := _) ?_ ?_ ?_

theorem execLldpduReceive_kept {s0 : State} {port : Port} {s : State} (h : Kept s0 s) :
    KeptO s0 (execLldpduReceive port s) := by
  unfold execLldpduReceive
  try dsimp only
  repeat' first
    | with_reducible assumption
    | with_reducible apply State.modPort_kept
    | with_reducible apply keptO_next
    | with_reducible apply keptO_fault
    | with_reducible apply keptO_ite
    | (with_reducible intro; with_reducible intros)
    | split
    | with_reducible rfl
    | simp only [List.length_modify, List.length_map, List.length_mapIdx]
    | with_reducible refine kept_mk (t := _) ?_ ?_ ?_

theorem execPartnerEeeTlvExpire_kept {s0 : State} {port : Port} {s : State} (h : Kept s0 s) :
    KeptO s0 (execPartnerEeeTlvExpire port s) := by
  unfold execPartnerEeeTlvExpire
  try dsimp only
  repeat' first
    | with_reducible assumption
    | with_reducible apply State.modPort_kept
    | with_reducible apply keptO_next
    | with_reducible apply keptO_fault
    | with_reducible apply keptO_ite
    | with_reducible apply kept_ite
    | (with_reducible intro; with_reducible intros)
    | split
    | with_reducible rfl
    | simp only [List.length_modify, List.length_map, List.length_mapIdx]
    | with_reducible refine kept_mk (t := _) ?_ ?_ ?_

theorem execLldpduSend_kept {s0 : State} {port : Port} {s : State} (h : Kept s0 s) :
    KeptO s0 (execLldpduSend port s) := by
  unfold execLldpduSend
  try dsimp only
  repeat' first
    | with_reducible assumption
    | with_reducible apply State.modPort_kept
    | with_reducible apply kept_elim
    | with_reducible apply keptO_next
    | with_reducible apply keptO_fault
    | with_reducible apply keptO_ite
    | with_reducible apply kept_ite
    | (with_reducible intro; with_reducible intros)
    | split
    | with_reducible rfl
    | simp only [List.length_modify, List.length_map, List.length_mapIdx]
    | with_reducible refine kept_mk (t := _) ?_ ?_ ?_

theorem execTransmitLpiEnter_kept {s0 : State} {port : Port} {s : State} (h : Kept s0 s) :
    KeptO s0 (execTransmitLpiEnter port s) := by
  unfold execTransmitLpiEnter
  try dsimp only
  repeat' first
    | with_reducible assumption
    | with_reducible apply State.modPort_kept
    | with_reducible apply State.bumpPort_kept
    | with_reducible apply keptO_next
    | with_reducible apply keptO_fault
    | with_reducible apply keptO_ite
    | with_reducible apply kept_ite
    | (with_reducible intro; with_reducible intros)
    | with_reducible rfl
    | simp only [List.length_modify, List.length_map, List.length_mapIdx]
    | with_reducible refine kept_mk (t := _) ?_ ?_ ?_

theorem State.releaseDesc_kept {s0 : State} {s : State} {id : Nat} (h : Kept s0 s) :
    Kept s0 (State.releaseDesc s id) := by
  unfold State.releaseDesc
  try dsimp only
  repeat' first
    | with_reducible assumption
    | with_reducible apply State.modDesc_kept
    | (with_reducible intro; with_reducible intros)
    | with_reducible rfl
    | simp only [List.length_modify, List.length_map, List.length_mapIdx]
    | with_reducible refine kept_mk (t := _) ?_ ?_ ?_

theorem State.frameGone_kept {s0 : State} {s : State} {f : OutFrame} (h : Kept s0 s) :
    Kept s0 (State.frameGone s f) := by
  unfold State.frameGone
  try dsimp only
  repeat' first
    | with_reducible assumption
    | with_reducible apply State.causeReset_kept
    | with_reducible apply State.releaseDesc_kept
    | split

theorem State.meterRead_kept {s0 : State} {s : State} {f : OutFrame} (h : Kept s0 s) :
    Kept s0 (State.meterRead s f) := by
  unfold State.meterRead
  try dsimp only
  repeat' first
    | with_reducible assumption
    | with_reducible apply State.modTenant_kept
    | with_reducible apply kept_ite
    | (with_reducible intro; with_reducible intros)
    | with_reducible rfl
    | simp only [List.length_modify, List.length_map, List.length_mapIdx]
    | with_reducible refine kept_mk (t := _) ?_ ?_ ?_

theorem State.sendFrame_kept {s0 : State} {s : State} {port : Port} {f : OutFrame} (h : Kept s0 s) :
    Kept s0 (State.sendFrame s port f) := by
  unfold State.sendFrame
  try dsimp only
  repeat' first
    | with_reducible assumption
    | with_reducible apply State.modPort_kept
    | with_reducible apply State.bumpPort_kept
    | with_reducible apply State.meterRead_kept
    | with_reducible apply kept_ite
    | (with_reducible intro; with_reducible intros)
    | with_reducible rfl
    | simp only [List.length_modify, List.length_map, List.length_mapIdx]
    | with_reducible refine kept_mk (t := _) ?_ ?_ ?_

theorem execTransmitFrame_kept {s0 : State} {port : Port} {s : State} (h : Kept s0 s) :
    KeptO s0 (execTransmitFrame port s) := by
  unfold execTransmitFrame
  try dsimp only
  repeat' first
    | with_reducible assumption
    | with_reducible apply State.modPort_kept
    | with_reducible apply State.bumpPort_kept
    | with_reducible apply State.frameGone_kept
    | with_reducible apply State.sendFrame_kept
    | with_reducible apply keptO_next
    | with_reducible apply keptO_fault
    | with_reducible apply keptO_ite
    | with_reducible apply kept_ite
    | (with_reducible intro; with_reducible intros)
    | split

theorem execEventForm_kept {s0 : State} {s : State} (h : Kept s0 s) :
    KeptO s0 (execEventForm s) := by
  unfold execEventForm
  try dsimp only
  repeat' first
    | with_reducible assumption
    | with_reducible apply State.modPort_kept
    | with_reducible apply keptO_next
    | with_reducible apply keptO_fault
    | with_reducible apply keptO_ite
    | (with_reducible intro; with_reducible intros)
    | split
    | with_reducible rfl
    | simp only [List.length_modify, List.length_map, List.length_mapIdx]
    | with_reducible refine kept_mk (t := _) ?_ ?_ ?_

end Sys2Proof.Laws
end

