-- ==== Sys2Proof/Laws/KeptSpanOps.lean ====
section
/-! SUPPORT. What every operation of Machine/SpanOps.lean keeps. -/
namespace Sys2Proof.Laws
open Sys2Proof Sys2Proof.Machine

theorem State.fence_kept {s0 : State} {s : State} {set : Nat} (h : Kept s0 s) :
    Kept s0 (State.fence s set) := by
  unfold State.fence
  try dsimp only
  repeat' first
    | with_reducible assumption
    | with_reducible apply kept_ite
    | (with_reducible intro; with_reducible intros)
    | with_reducible rfl
    | simp only [List.length_modify, List.length_map, List.length_mapIdx]
    | with_reducible refine kept_mk (t := _) ?_ ?_ ?_

theorem State.acceptBy_kept {s0 : State} {s : State} {id : Nat} {ph : Phase} {bound : Option Nat} (h : Kept s0 s) :
    Kept s0 (State.acceptBy s id ph bound) := by
  unfold State.acceptBy
  try dsimp only
  repeat' first
    | with_reducible assumption
    | with_reducible apply State.modDesc_kept
    | with_reducible apply State.accept_kept
    | (with_reducible intro; with_reducible intros)
    | with_reducible rfl
    | simp only [List.length_modify, List.length_map, List.length_mapIdx]
    | with_reducible refine kept_mk (t := _) ?_ ?_ ?_

theorem State.joinBatch_kept {s0 : State} {s : State} {e : Entry} (h : Kept s0 s) :
    Kept s0 (State.joinBatch s e) := by
  unfold State.joinBatch
  try dsimp only
  repeat' first
    | with_reducible assumption
    | with_reducible apply kept_ite
    | with_reducible rfl
    | simp only [List.length_modify, List.length_map, List.length_mapIdx]
    | with_reducible refine kept_mk (t := _) ?_ ?_ ?_

end Sys2Proof.Laws
end

