-- ==== Sys2Proof/Laws/KeptCinch.lean ====
section
/-! SUPPORT. What every operation of Machine/Cinch.lean keeps. -/
namespace Sys2Proof.Laws
open Sys2Proof Sys2Proof.Machine

theorem State.modChan_kept {s0 : State} {s : State} {ch : Nat} {f : Channel → Channel} (h : Kept s0 s) :
    Kept s0 (State.modChan s ch f) := by
  unfold State.modChan
  try dsimp only
  repeat' first
    | with_reducible assumption
    | with_reducible rfl
    | simp only [List.length_modify, List.length_map, List.length_mapIdx]
    | with_reducible refine kept_mk (t := _) ?_ ?_ ?_

theorem State.queueFlows_kept {s0 : State} {s : State} {ch : Nat} {r : Nat} {fs : List Flow} (h : Kept s0 s) :
    Kept s0 (State.queueFlows s ch r fs) := by
  unfold State.queueFlows
  try dsimp only
  repeat' first
    | with_reducible assumption
    | with_reducible apply State.modChan_kept
    | (with_reducible intro; with_reducible intros)
    | with_reducible rfl
    | simp only [List.length_modify, List.length_map, List.length_mapIdx]
    | with_reducible refine kept_mk (t := _) ?_ ?_ ?_

theorem State.queueWork_kept {s0 : State} {s : State} {ch : Nat} {home : Nat} {bytes : Nat} {record : Option Nat} (h : Kept s0 s) :
    Kept s0 (State.queueWork s ch home bytes record) := by
  unfold State.queueWork
  try dsimp only
  repeat' first
    | with_reducible assumption
    | with_reducible apply State.queueFlows_kept
    | (with_reducible intro; with_reducible intros)
    | with_reducible rfl
    | simp only [List.length_modify, List.length_map, List.length_mapIdx]
    | with_reducible refine kept_mk (t := _) ?_ ?_ ?_

theorem State.queueSweep_kept {s0 : State} {s : State} {home : Nat} {t : Nat} {recs : List Rec} (h : Kept s0 s) :
    Kept s0 (State.queueSweep s home t recs) := by
  unfold State.queueSweep
  try dsimp only
  repeat' first
    | with_reducible assumption
    | with_reducible apply State.queueWork_kept
    | with_reducible apply kept_foldl
    | (with_reducible intro; with_reducible intros)
    | with_reducible rfl
    | simp only [List.length_modify, List.length_map, List.length_mapIdx]
    | with_reducible refine kept_mk (t := _) ?_ ?_ ?_

theorem State.dropFlows_kept {s0 : State} {s : State} {id : Nat} (h : Kept s0 s) :
    Kept s0 (State.dropFlows s id) := by
  unfold State.dropFlows
  try dsimp only
  repeat' first
    | with_reducible assumption
    | with_reducible rfl
    | simp only [List.length_modify, List.length_map, List.length_mapIdx]
    | with_reducible refine kept_mk (t := _) ?_ ?_ ?_

theorem State.takeBack_kept {s0 : State} {s : State} {r : Nat} (h : Kept s0 s) :
    Kept s0 (State.takeBack s r) := by
  unfold State.takeBack
  try dsimp only
  repeat' first
    | with_reducible assumption
    | with_reducible apply State.bumpBy_kept
    | with_reducible apply kept_ite
    | (with_reducible intro; with_reducible intros)
    | with_reducible rfl
    | simp only [List.length_modify, List.length_map, List.length_mapIdx]
    | with_reducible refine kept_mk (t := _) ?_ ?_ ?_

theorem State.grantOn_kept {s0 : State} {s : State} {ch : Nat} {r : Nat} {step : Nat} (h : Kept s0 s) :
    Kept s0 (State.grantOn s ch r step) := by
  unfold State.grantOn
  try dsimp only
  repeat' first
    | with_reducible assumption
    | with_reducible apply State.bump_kept
    | with_reducible apply State.modChan_kept
    | with_reducible apply kept_ite
    | with_reducible rfl
    | simp only [List.length_modify, List.length_map, List.length_mapIdx]
    | with_reducible refine kept_mk (t := _) ?_ ?_ ?_

theorem State.arbitrate_kept {s0 : State} {s : State} {ch : Nat} (h : Kept s0 s) :
    Kept s0 (State.arbitrate s ch) := by
  unfold State.arbitrate
  try dsimp only
  repeat' first
    | with_reducible assumption
    | with_reducible apply State.grantOn_kept
    | with_reducible apply kept_ite
    | split

theorem execCinchCreditTick_kept {s0 : State} {s : State} (h : Kept s0 s) :
    KeptO s0 (execCinchCreditTick s) := by
  unfold execCinchCreditTick
  try dsimp only
  repeat' first
    | with_reducible assumption
    | with_reducible apply State.bumpBy_kept
    | with_reducible apply keptO_next
    | with_reducible apply keptO_fault
    | with_reducible apply keptO_ite
    | (with_reducible intro; with_reducible intros)
    | with_reducible rfl
    | simp only [List.length_modify, List.length_map, List.length_mapIdx]
    | with_reducible refine kept_mk (t := _) ?_ ?_ ?_

theorem execCinchGrant_kept {s0 : State} {ch : Fin 16} {s : State} (h : Kept s0 s) :
    KeptO s0 (execCinchGrant ch s) := by
  unfold execCinchGrant
  try dsimp only
  repeat' first
    | with_reducible assumption
    | with_reducible apply State.arbitrate_kept
    | with_reducible apply keptO_next
    | with_reducible apply keptO_fault
    | with_reducible apply keptO_ite

theorem State.preempt_kept {s0 : State} {s : State} {ch : Nat} (h : Kept s0 s) :
    Kept s0 (State.preempt s ch) := by
  unfold State.preempt
  try dsimp only
  repeat' first
    | with_reducible assumption
    | with_reducible apply State.bump_kept
    | with_reducible apply State.modChan_kept
    | with_reducible apply State.grantOn_kept
    | with_reducible apply kept_ite
    | (with_reducible intro; with_reducible intros)
    | split
    | with_reducible rfl
    | simp only [List.length_modify, List.length_map, List.length_mapIdx]
    | with_reducible refine kept_mk (t := _) ?_ ?_ ?_

theorem execCinchPreempt_kept {s0 : State} {ch : Fin 16} {s : State} (h : Kept s0 s) :
    KeptO s0 (execCinchPreempt ch s) := by
  unfold execCinchPreempt
  try dsimp only
  repeat' first
    | with_reducible assumption
    | with_reducible apply State.preempt_kept
    | with_reducible apply keptO_next
    | with_reducible apply keptO_fault
    | with_reducible apply keptO_ite

theorem execTransferUrgent_kept {s0 : State} {ch : Fin 16} {requester : Nat} {s : State} (h : Kept s0 s) :
    KeptO s0 (execTransferUrgent ch requester s) := by
  unfold execTransferUrgent
  try dsimp only
  repeat' first
    | with_reducible assumption
    | with_reducible apply State.modChan_kept
    | with_reducible apply keptO_next
    | with_reducible apply keptO_fault
    | with_reducible apply keptO_ite
    | (with_reducible intro; with_reducible intros)
    | with_reducible rfl
    | simp only [List.length_modify, List.length_map, List.length_mapIdx]
    | with_reducible refine kept_mk (t := _) ?_ ?_ ?_

theorem execCinchTransferEnd_kept {s0 : State} {ch : Fin 16} {s : State} (h : Kept s0 s) :
    KeptO s0 (execCinchTransferEnd ch s) := by
  unfold execCinchTransferEnd
  try dsimp only
  repeat' first
    | with_reducible assumption
    | with_reducible apply State.finish_kept
    | with_reducible apply State.modChan_kept
    | with_reducible apply keptO_next
    | with_reducible apply keptO_fault
    | with_reducible apply keptO_ite

theorem execCinchStarved_kept {s0 : State} {ch : Fin 16} {requester : Nat} {s : State} (h : Kept s0 s) :
    KeptO s0 (execCinchStarved ch requester s) := by
  unfold execCinchStarved
  try dsimp only
  repeat' first
    | with_reducible assumption
    | with_reducible apply State.bump_kept
    | with_reducible apply State.raise_kept
    | with_reducible apply keptO_next
    | with_reducible apply keptO_fault
    | with_reducible apply keptO_ite
    | with_reducible apply kept_ite
    | with_reducible rfl
    | simp only [List.length_modify, List.length_map, List.length_mapIdx]
    | with_reducible refine kept_mk (t := _) ?_ ?_ ?_

end Sys2Proof.Laws
end

