-- ==== Sys2Proof/Laws/KeptTick.lean ====
section
/-! SUPPORT. What every operation of Machine/Tick.lean keeps. -/
namespace Sys2Proof.Laws
open Sys2Proof Sys2Proof.Machine

theorem State.tickBusy_kept {s0 : State} {s : State} (h : Kept s0 s) :
    Kept s0 (State.tickBusy s) := by
  unfold State.tickBusy
  try dsimp only
  repeat' first
    | with_reducible assumption
    | with_reducible apply State.modTenant_kept
    | with_reducible apply kept_foldl
    | (with_reducible intro; with_reducible intros)
    | with_reducible rfl
    | simp only [List.length_modify, List.length_map, List.length_mapIdx]
    | with_reducible refine kept_mk (t := _) ?_ ?_ ?_

theorem State.tickFec_kept {s0 : State} {s : State} {p : Port} (h : Kept s0 s) :
    Kept s0 (State.tickFec s p) := by
  unfold State.tickFec
  try dsimp only
  repeat' first
    | with_reducible assumption
    | with_reducible apply State.bumpBy_kept
    | with_reducible apply kept_elim
    | with_reducible apply kept_ite
    | (with_reducible intro; with_reducible intros)
    | with_reducible rfl
    | simp only [List.length_modify, List.length_map, List.length_mapIdx]
    | with_reducible refine kept_mk (t := _) ?_ ?_ ?_

theorem State.tickPasses_kept {s0 : State} {s : State} (h : Kept s0 s) :
    Kept s0 (State.tickPasses s) := by
  unfold State.tickPasses
  try dsimp only
  repeat' first
    | with_reducible assumption
    | with_reducible apply State.bump_kept
    | with_reducible apply State.adaptLanes_kept
    | with_reducible apply State.tickBusy_kept
    | with_reducible apply State.tickFec_kept
    | with_reducible apply kept_ite
    | split
    | with_reducible rfl
    | simp only [List.length_modify, List.length_map, List.length_mapIdx]
    | with_reducible refine kept_mk (t := _) ?_ ?_ ?_
    | (show Media.words _ = _; rfl)

end Sys2Proof.Laws
end

