-- ==== Sys2Proof/Laws/KeptOrder.lean ====
section
/-! SUPPORT. What every operation of Machine/Order.lean keeps. -/
namespace Sys2Proof.Laws
open Sys2Proof Sys2Proof.Machine

theorem State.encryptOnce_kept {s0 : State} {s : State} {t : Nat} (h : Kept s0 s) :
    Kept s0 (State.encryptOnce s t) := by
  unfold State.encryptOnce
  try dsimp only
  repeat' first
    | with_reducible assumption
    | with_reducible apply State.bumpTkp_kept
    | with_reducible apply State.raise_kept
    | with_reducible apply kept_ite
    | (with_reducible intro; with_reducible intros)
    | split
    | with_reducible rfl
    | simp only [List.length_modify, List.length_map, List.length_mapIdx]
    | with_reducible refine kept_mk (t := _) ?_ ?_ ?_

theorem State.sealUp_kept {s0 : State} {s : State} {t : Nat} {r : Rec} (h : Kept s0 s) :
    Kept s0 (State.sealUp s t r) := by
  unfold State.sealUp
  try dsimp only
  repeat' first
    | with_reducible assumption
    | with_reducible apply State.modTenant_kept
    | with_reducible apply State.encryptOnce_kept

theorem State.storeValue_kept {s0 : State} {s : State} {t : Nat} {key : Bytes} {value : Bytes} {seq : Nat} {recs : List Rec} (h : Kept s0 s) :
    Kept s0 (State.storeValue s t key value seq recs) := by
  unfold State.storeValue
  try dsimp only
  repeat' first
    | with_reducible assumption
    | with_reducible apply State.modTenant_kept
    | with_reducible apply State.bumpBy_kept
    | with_reducible apply State.sealUp_kept
    | (with_reducible intro; with_reducible intros)
    | split
    | with_reducible rfl
    | simp only [List.length_modify, List.length_map, List.length_mapIdx]
    | with_reducible refine kept_mk (t := _) ?_ ?_ ?_
    | (show Media.words _ = _; rfl)

theorem State.applyWrite_kept {s0 : State} {s : State} {t : Nat} {seq : Nat} {recs : List Rec} {w : Bytes × Option Bytes} (h : Kept s0 s) :
    Kept s0 (State.applyWrite s t seq recs w) := by
  unfold State.applyWrite
  try dsimp only
  repeat' first
    | with_reducible assumption
    | with_reducible apply State.modTenant_kept
    | with_reducible apply State.storeValue_kept
    | (with_reducible intro; with_reducible intros)
    | split

theorem State.meterWrites_kept {s0 : State} {s : State} {e : Entry} {writes : List (Bytes × Option Bytes)} (h : Kept s0 s) :
    Kept s0 (State.meterWrites s e writes) := by
  unfold State.meterWrites
  try dsimp only
  repeat' first
    | with_reducible assumption
    | with_reducible apply State.modTenant_kept
    | with_reducible apply kept_foldl
    | with_reducible apply kept_elim
    | with_reducible apply kept_ite
    | (with_reducible intro; with_reducible intros)
    | with_reducible rfl
    | simp only [List.length_modify, List.length_map, List.length_mapIdx]
    | with_reducible refine kept_mk (t := _) ?_ ?_ ?_

theorem State.issueSeq_kept {s0 : State} {s : State} {set : Nat} (h : Kept s0 s) :
    Kept s0 (State.issueSeq s set) := by
  unfold State.issueSeq
  try dsimp only
  repeat' first
    | with_reducible assumption
    | with_reducible apply kept_ite
    | (with_reducible intro; with_reducible intros)
    | with_reducible rfl
    | simp only [List.length_modify, List.length_map, List.length_mapIdx]
    | with_reducible refine kept_mk (t := _) ?_ ?_ ?_

theorem State.raiseSeq_kept {s0 : State} {s : State} {set : Nat} {n : Nat} (h : Kept s0 s) :
    Kept s0 (State.raiseSeq s set n) := by
  unfold State.raiseSeq
  try dsimp only
  repeat' first
    | with_reducible assumption
    | with_reducible apply kept_ite
    | (with_reducible intro; with_reducible intros)
    | with_reducible rfl
    | simp only [List.length_modify, List.length_map, List.length_mapIdx]
    | with_reducible refine kept_mk (t := _) ?_ ?_ ?_

theorem State.raiseAbove_kept {s0 : State} {s : State} {t : Nat} (h : Kept s0 s) :
    Kept s0 (State.raiseAbove s t) := by
  unfold State.raiseAbove
  try dsimp only
  repeat' first
    | with_reducible assumption
    | with_reducible apply State.raiseSeq_kept
    | with_reducible apply kept_foldl
    | (with_reducible intro; with_reducible intros)

theorem State.chainEntry_kept {s0 : State} {s : State} {e : Entry} {index : Nat} {seq : Nat} {st : Status} (h : Kept s0 s) :
    Kept s0 (State.chainEntry s e index seq st) := by
  unfold State.chainEntry
  try dsimp only
  repeat' first
    | with_reducible assumption
    | with_reducible apply kept_ite
    | (with_reducible intro; with_reducible intros)
    | with_reducible rfl
    | simp only [List.length_modify, List.length_map, List.length_mapIdx]
    | with_reducible refine kept_mk (t := _) ?_ ?_ ?_

theorem State.replyEntry_kept {s0 : State} {s : State} {e : Entry} {st : Status} {param : Nat} {key : Bytes} {value : Bytes} (h : Kept s0 s) :
    Kept s0 (State.replyEntry s e st param key value) := by
  unfold State.replyEntry
  try dsimp only
  repeat' first
    | with_reducible assumption
    | with_reducible apply State.answer_kept
    | split

theorem State.refuseEntry_kept {s0 : State} {s : State} {e : Entry} {index : Nat} {st : Status} {param : Nat} {key : Bytes} (h : Kept s0 s) :
    Kept s0 (State.refuseEntry s e index st param key) := by
  unfold State.refuseEntry
  try dsimp only
  repeat' first
    | with_reducible assumption
    | with_reducible apply State.chainEntry_kept
    | with_reducible apply State.replyEntry_kept

theorem State.queueDestage_kept {s0 : State} {s : State} {r : JRec} (h : Kept s0 s) :
    Kept s0 (State.queueDestage s r) := by
  unfold State.queueDestage
  try dsimp only
  repeat' first
    | with_reducible assumption
    | with_reducible apply State.queueWork_kept

theorem State.addRecord_kept {s0 : State} {s : State} {r : JRec} {recs : List Rec} (h : Kept s0 s) :
    Kept s0 (State.addRecord s r recs) := by
  unfold State.addRecord
  try dsimp only
  repeat' first
    | with_reducible assumption
    | with_reducible apply State.queueDestage_kept
    | with_reducible rfl
    | simp only [List.length_modify, List.length_map, List.length_mapIdx]
    | with_reducible refine kept_mk (t := _) ?_ ?_ ?_

theorem State.installEntry_kept {s0 : State} {s : State} {e : Entry} {index : Nat} {fx : Effects} {noted : Bool} {recs : List Rec} (h : Kept s0 s) :
    Kept s0 (State.installEntry s e index fx noted recs) := by
  unfold State.installEntry
  try dsimp only
  repeat' first
    | with_reducible assumption
    | with_reducible apply State.bump_kept
    | with_reducible apply State.applyWrite_kept
    | with_reducible apply State.meterWrites_kept
    | with_reducible apply State.issueSeq_kept
    | with_reducible apply State.chainEntry_kept
    | with_reducible apply State.replyEntry_kept
    | with_reducible apply State.addRecord_kept
    | with_reducible apply kept_foldl
    | with_reducible apply kept_ite
    | (with_reducible intro; with_reducible intros)
    | split

theorem State.commitEntry_kept {s0 : State} {s : State} {e : Entry} {index : Nat} {fx : Effects} (h : Kept s0 s) :
    Kept s0 (State.commitEntry s e index fx) := by
  unfold State.commitEntry
  try dsimp only
  repeat' first
    | with_reducible assumption
    | with_reducible apply State.installEntry_kept

theorem State.watchJournal_kept {s0 : State} {s : State} (h : Kept s0 s) :
    Kept s0 (State.watchJournal s) := by
  unfold State.watchJournal
  try dsimp only
  repeat' first
    | with_reducible assumption
    | with_reducible apply State.raise_kept
    | with_reducible apply kept_ite
    | with_reducible rfl
    | simp only [List.length_modify, List.length_map, List.length_mapIdx]
    | with_reducible refine kept_mk (t := _) ?_ ?_ ?_

theorem State.applyClose_kept {s0 : State} {s : State} {e : Entry} {index : Nat} (h : Kept s0 s) :
    Kept s0 (State.applyClose s e index) := by
  unfold State.applyClose
  try dsimp only
  repeat' first
    | with_reducible assumption
    | with_reducible apply State.modTenant_kept
    | with_reducible apply State.chainEntry_kept
    | with_reducible apply State.replyEntry_kept
    | with_reducible apply kept_ite
    | (with_reducible intro; with_reducible intros)
    | split
    | with_reducible rfl
    | simp only [List.length_modify, List.length_map, List.length_mapIdx]
    | with_reducible refine kept_mk (t := _) ?_ ?_ ?_

theorem State.settle_kept {s0 : State} {fuel : Nat} {s : State} (h : Kept s0 s) : Kept s0 (State.settle fuel s) := by
  induction fuel generalizing s with
  | zero => exact h
  | succ n ih =>
    unfold State.settle
    dsimp only
    repeat' first
      | with_reducible assumption
      | with_reducible apply ih
      | with_reducible apply State.applyClose_kept
      | with_reducible apply State.refuseEntry_kept
      | split
      | with_reducible rfl
      | with_reducible refine kept_mk (t := _) ?_ ?_ ?_

theorem State.settled_kept {s0 : State} {s : State} (h : Kept s0 s) :
    Kept s0 (State.settled s) := by
  unfold State.settled
  try dsimp only
  repeat' first
    | with_reducible assumption
    | with_reducible apply State.settle_kept

theorem State.enqueueLocal_kept {s0 : State} {s : State} {e : Entry} (h : Kept s0 s) :
    Kept s0 (State.enqueueLocal s e) := by
  unfold State.enqueueLocal
  try dsimp only
  repeat' first
    | with_reducible assumption
    | with_reducible apply State.settled_kept
    | with_reducible rfl
    | simp only [List.length_modify, List.length_map, List.length_mapIdx]
    | with_reducible refine kept_mk (t := _) ?_ ?_ ?_

theorem State.popOrder_kept {s0 : State} {s : State} (h : Kept s0 s) :
    Kept s0 (State.popOrder s) := by
  unfold State.popOrder
  try dsimp only
  repeat' first
    | with_reducible assumption
    | with_reducible apply State.settled_kept
    | with_reducible rfl
    | simp only [List.length_modify, List.length_map, List.length_mapIdx]
    | with_reducible refine kept_mk (t := _) ?_ ?_ ?_

theorem State.notePeak_kept {s0 : State} {s : State} (h : Kept s0 s) :
    Kept s0 (State.notePeak s) := by
  unfold State.notePeak
  try dsimp only
  repeat' first
    | with_reducible assumption
    | with_reducible rfl
    | simp only [List.length_modify, List.length_map, List.length_mapIdx]
    | with_reducible refine kept_mk (t := _) ?_ ?_ ?_

end Sys2Proof.Laws
end

