-- ==== Sys2Proof/Laws/KeptRecords.lean ====
section
/-! SUPPORT. What every operation of Machine/Records.lean keeps. -/
namespace Sys2Proof.Laws
open Sys2Proof Sys2Proof.Machine

theorem State.looked_kept {s0 : State} {s : State} (h : Kept s0 s) :
    Kept s0 (State.looked s) := by
  unfold State.looked
  try dsimp only
  repeat' first
    | with_reducible assumption
    | with_reducible apply State.bump_kept

theorem State.deliverValue_kept {s0 : State} {s : State} {d : Desc} {r : Rec} (h : Kept s0 s) :
    Kept s0 (State.deliverValue s d r) := by
  unfold State.deliverValue
  try dsimp only
  repeat' first
    | with_reducible assumption
    | with_reducible apply State.answer_kept
    | with_reducible apply kept_ite

theorem State.deliverHold_kept {s0 : State} {s : State} {d : Desc} {r : Rec} {floored : Bool} (h : Kept s0 s) :
    Kept s0 (State.deliverHold s d r floored) := by
  unfold State.deliverHold
  try dsimp only
  repeat' first
    | with_reducible assumption
    | with_reducible apply State.modTenant_kept
    | with_reducible apply State.answer_kept
    | with_reducible apply State.refuse_kept
    | with_reducible apply kept_ite
    | (with_reducible intro; with_reducible intros)
    | split
    | with_reducible rfl
    | simp only [List.length_modify, List.length_map, List.length_mapIdx]
    | with_reducible refine kept_mk (t := _) ?_ ?_ ?_

theorem State.deliverVerify_kept {s0 : State} {s : State} {d : Desc} {r : Rec} (h : Kept s0 s) :
    Kept s0 (State.deliverVerify s d r) := by
  unfold State.deliverVerify
  try dsimp only
  repeat' first
    | with_reducible assumption
    | with_reducible apply State.answer_kept
    | with_reducible apply kept_ite
    | split
    | with_reducible rfl
    | simp only [List.length_modify, List.length_map, List.length_mapIdx]
    | with_reducible refine kept_mk (t := _) ?_ ?_ ?_

theorem State.deliver_kept {s0 : State} {s : State} {d : Desc} {r : Rec} {floored : Bool} (h : Kept s0 s) :
    Kept s0 (State.deliver s d r floored) := by
  unfold State.deliver
  try dsimp only
  repeat' first
    | with_reducible assumption
    | with_reducible apply State.deliverValue_kept
    | with_reducible apply State.deliverHold_kept
    | with_reducible apply State.deliverVerify_kept
    | with_reducible apply kept_ite

theorem State.deliverLost_kept {s0 : State} {s : State} {d : Desc} {key : Bytes} {lost : Lost} (h : Kept s0 s) :
    Kept s0 (State.deliverLost s d key lost) := by
  unfold State.deliverLost
  try dsimp only
  repeat' first
    | with_reducible assumption
    | with_reducible apply State.answer_kept
    | with_reducible apply kept_ite
    | split

theorem State.beginRead_kept {s0 : State} {s : State} {id : Nat} {fn : Nat} {r : Rec} {ph : Phase} (h : Kept s0 s) :
    Kept s0 (State.beginRead s id fn r ph) := by
  unfold State.beginRead
  try dsimp only
  repeat' first
    | with_reducible assumption
    | with_reducible apply State.modDesc_kept
    | with_reducible apply State.accept_kept
    | with_reducible apply State.queueFlows_kept
    | (with_reducible intro; with_reducible intros)
    | with_reducible rfl
    | simp only [List.length_modify, List.length_map, List.length_mapIdx]
    | with_reducible refine kept_mk (t := _) ?_ ?_ ?_

theorem State.readRecord_kept {s0 : State} {s : State} {d : Desc} {r : Rec} {floored : Bool} (h : Kept s0 s) :
    Kept s0 (State.readRecord s d r floored) := by
  unfold State.readRecord
  try dsimp only
  repeat' first
    | with_reducible assumption
    | with_reducible apply State.deliver_kept
    | with_reducible apply State.deliverLost_kept
    | with_reducible apply State.beginRead_kept
    | with_reducible apply kept_ite

theorem State.holdGate_kept {s0 : State} {s : State} {d : Desc} {floored : Bool} {x : State} (h : Kept s0 s)
    (k : Kept s0 x) : Kept s0 ((State.holdGate s d floored).getD x) := by
  unfold State.holdGate
  repeat' first
    | with_reducible assumption
    | simp only [Option.getD_some, Option.getD_none]
    | with_reducible apply State.refuse_kept
    | with_reducible apply State.pushBack_kept
    | split

theorem State.serveKey_kept {s0 : State} {s : State} {d : Desc} {floored : Bool} (h : Kept s0 s) :
    Kept s0 (State.serveKey s d floored) := by
  unfold State.serveKey
  try dsimp only
  repeat' first
    | with_reducible assumption
    | with_reducible apply State.answer_kept
    | with_reducible apply State.readRecord_kept
    | with_reducible apply State.holdGate_kept
    | with_reducible apply kept_ite
    | split
    | split
    | simp only [Option.getD_some, Option.getD_none]

theorem State.foundGate_kept {s0 : State} {s : State} {d : Desc} {key : Bytes} {go : State → State} (h : Kept s0 s) (hf : ∀ v0, Kept s0 v0 → Kept s0 (go v0)) :
    Kept s0 (State.foundGate s d key go) := by
  unfold State.foundGate
  try dsimp only
  repeat' first
    | with_reducible assumption
    | with_reducible apply State.refuse_kept
    | with_reducible apply State.accept_kept
    | with_reducible apply hf
    | with_reducible apply kept_ite
    | split

theorem State.serveFound_kept {s0 : State} {s : State} {d : Desc} {key : Bytes} {floored : Bool} (h : Kept s0 s) :
    Kept s0 (State.serveFound s d key floored) := by
  unfold State.serveFound
  try dsimp only
  repeat' first
    | with_reducible assumption
    | with_reducible apply State.answer_kept
    | with_reducible apply State.readRecord_kept
    | with_reducible apply State.foundGate_kept
    | (with_reducible intro; with_reducible intros)
    | split

theorem State.answerEdge_kept {s0 : State} {s : State} {d : Desc} {here : Bytes} {resume : Option Bytes} (h : Kept s0 s) :
    Kept s0 (State.answerEdge s d here resume) := by
  unfold State.answerEdge
  try dsimp only
  repeat' first
    | with_reducible assumption
    | with_reducible apply State.answer_kept

theorem State.serveGeneric_kept {s0 : State} {s : State} {d : Desc} {floored : Bool} (h : Kept s0 s) :
    Kept s0 (State.serveGeneric s d floored) := by
  unfold State.serveGeneric
  try dsimp only
  repeat' first
    | with_reducible assumption
    | with_reducible apply State.answer_kept
    | with_reducible apply State.serveFound_kept
    | with_reducible apply State.answerEdge_kept
    | with_reducible apply kept_ite
    | split

theorem State.stepTo_kept {s0 : State} {s : State} {d : Desc} {c : Cursor} {r : Rec} {floored : Bool} (h : Kept s0 s) :
    Kept s0 (State.stepTo s d c r floored) := by
  unfold State.stepTo
  try dsimp only
  repeat' first
    | with_reducible assumption
    | with_reducible apply State.modTenant_kept
    | with_reducible apply State.refuse_kept
    | with_reducible apply State.readRecord_kept
    | with_reducible apply kept_ite
    | (with_reducible intro; with_reducible intros)
    | with_reducible rfl
    | simp only [List.length_modify, List.length_map, List.length_mapIdx]
    | with_reducible refine kept_mk (t := _) ?_ ?_ ?_

theorem State.stepEnds_kept {s0 : State} {s : State} {d : Desc} {c : Cursor} (h : Kept s0 s) :
    Kept s0 (State.stepEnds s d c) := by
  unfold State.stepEnds
  try dsimp only
  repeat' first
    | with_reducible assumption
    | with_reducible apply State.modTenant_kept
    | (with_reducible intro; with_reducible intros)
    | with_reducible rfl
    | simp only [List.length_modify, List.length_map, List.length_mapIdx]
    | with_reducible refine kept_mk (t := _) ?_ ?_ ?_

theorem State.serveStep_kept {s0 : State} {s : State} {d : Desc} {c : Cursor} {floored : Bool} (h : Kept s0 s) :
    Kept s0 (State.serveStep s d c floored) := by
  unfold State.serveStep
  try dsimp only
  repeat' first
    | with_reducible assumption
    | with_reducible apply State.answer_kept
    | with_reducible apply State.foundGate_kept
    | with_reducible apply State.answerEdge_kept
    | with_reducible apply State.stepTo_kept
    | with_reducible apply State.stepEnds_kept
    | (with_reducible intro; with_reducible intros)
    | split

theorem State.restartLease_kept {s0 : State} {s : State} {d : Desc} {floored : Bool} (h : Kept s0 s) :
    Kept s0 (State.restartLease s d floored) := by
  unfold State.restartLease
  try dsimp only
  repeat' first
    | with_reducible assumption
    | with_reducible apply State.modTenant_kept
    | with_reducible apply kept_ite
    | split

theorem State.serveData_kept {s0 : State} {s : State} {d : Desc} {floored : Bool} (h : Kept s0 s) :
    Kept s0 (State.serveData s d floored) := by
  unfold State.serveData
  try dsimp only
  repeat' first
    | with_reducible assumption
    | with_reducible apply State.refuse_kept
    | with_reducible apply State.serveKey_kept
    | with_reducible apply State.serveGeneric_kept
    | with_reducible apply State.serveStep_kept
    | with_reducible apply kept_ite
    | split

theorem State.waitFloor_kept {s0 : State} {s : State} {d : Desc} (h : Kept s0 s) :
    Kept s0 (State.waitFloor s d) := by
  unfold State.waitFloor
  try dsimp only
  repeat' first
    | with_reducible assumption
    | with_reducible apply State.accept_kept
    | with_reducible apply State.holdGate_kept
    | with_reducible apply kept_ite
    | split
    | simp only [Option.getD_some, Option.getD_none]

theorem State.serveGated_kept {s0 : State} {s : State} {d : Desc} {key : Bytes} {floored : Bool} (h : Kept s0 s) :
    Kept s0 (State.serveGated s d key floored) := by
  unfold State.serveGated
  try dsimp only
  repeat' first
    | with_reducible assumption
    | with_reducible apply State.refuse_kept
    | with_reducible apply State.serveData_kept
    | with_reducible apply State.waitFloor_kept
    | with_reducible apply kept_ite
    | split

theorem State.serveRead_kept {s0 : State} {s : State} {d : Desc} {floored : Bool} (h : Kept s0 s) :
    Kept s0 (State.serveRead s d floored) := by
  unfold State.serveRead
  try dsimp only
  repeat' first
    | with_reducible assumption
    | with_reducible apply State.refuse_kept
    | with_reducible apply State.pushBack_kept
    | with_reducible apply State.looked_kept
    | with_reducible apply State.restartLease_kept
    | with_reducible apply State.serveGated_kept
    | with_reducible apply kept_ite
    | split

theorem State.readCommand_kept {s0 : State} {s : State} {id : Nat} {op : Nat} (h : Kept s0 s) :
    Kept s0 (State.readCommand s id op) := by
  unfold State.readCommand
  try dsimp only
  repeat' first
    | with_reducible assumption
    | with_reducible apply State.serve_kept
    | with_reducible apply State.serveRead_kept
    | (with_reducible intro; with_reducible intros)

theorem execGet_kept {s0 : State} {id : Nat} {s : State} (h : Kept s0 s) :
    KeptO s0 (execGet id s) := by
  unfold execGet
  try dsimp only
  repeat' first
    | with_reducible assumption
    | with_reducible apply State.readCommand_kept
    | with_reducible apply keptO_next
    | with_reducible apply keptO_fault
    | with_reducible apply keptO_ite

theorem execGetGeneric_kept {s0 : State} {id : Nat} {s : State} (h : Kept s0 s) :
    KeptO s0 (execGetGeneric id s) := by
  unfold execGetGeneric
  try dsimp only
  repeat' first
    | with_reducible assumption
    | with_reducible apply State.readCommand_kept
    | with_reducible apply keptO_next
    | with_reducible apply keptO_fault
    | with_reducible apply keptO_ite

theorem execGetHold_kept {s0 : State} {id : Nat} {s : State} (h : Kept s0 s) :
    KeptO s0 (execGetHold id s) := by
  unfold execGetHold
  try dsimp only
  repeat' first
    | with_reducible assumption
    | with_reducible apply State.readCommand_kept
    | with_reducible apply keptO_next
    | with_reducible apply keptO_fault
    | with_reducible apply keptO_ite

theorem execBrowseNext_kept {s0 : State} {id : Nat} {s : State} (h : Kept s0 s) :
    KeptO s0 (execBrowseNext id s) := by
  unfold execBrowseNext
  try dsimp only
  repeat' first
    | with_reducible assumption
    | with_reducible apply State.readCommand_kept
    | with_reducible apply keptO_next
    | with_reducible apply keptO_fault
    | with_reducible apply keptO_ite

theorem execBrowsePrev_kept {s0 : State} {id : Nat} {s : State} (h : Kept s0 s) :
    KeptO s0 (execBrowsePrev id s) := by
  unfold execBrowsePrev
  try dsimp only
  repeat' first
    | with_reducible assumption
    | with_reducible apply State.readCommand_kept
    | with_reducible apply keptO_next
    | with_reducible apply keptO_fault
    | with_reducible apply keptO_ite

theorem execVerify_kept {s0 : State} {id : Nat} {s : State} (h : Kept s0 s) :
    KeptO s0 (execVerify id s) := by
  unfold execVerify
  try dsimp only
  repeat' first
    | with_reducible assumption
    | with_reducible apply State.readCommand_kept
    | with_reducible apply keptO_next
    | with_reducible apply keptO_fault
    | with_reducible apply keptO_ite

theorem State.serveRelease_kept {s0 : State} {s : State} {d : Desc} (h : Kept s0 s) :
    Kept s0 (State.serveRelease s d) := by
  unfold State.serveRelease
  try dsimp only
  repeat' first
    | with_reducible assumption
    | with_reducible apply State.modTenant_kept
    | with_reducible apply State.refuse_kept
    | with_reducible apply State.finish_kept
    | with_reducible apply State.pushBack_kept
    | with_reducible apply State.looked_kept
    | with_reducible apply kept_ite
    | split

theorem execRelease_kept {s0 : State} {id : Nat} {s : State} (h : Kept s0 s) :
    KeptO s0 (execRelease id s) := by
  unfold execRelease
  try dsimp only
  repeat' first
    | with_reducible assumption
    | with_reducible apply State.serve_kept
    | with_reducible apply State.serveRelease_kept
    | with_reducible apply keptO_next
    | with_reducible apply keptO_fault
    | with_reducible apply keptO_ite
    | (with_reducible intro; with_reducible intros)

theorem State.serveOpen_kept {s0 : State} {s : State} {d : Desc} (h : Kept s0 s) :
    Kept s0 (State.serveOpen s d) := by
  unfold State.serveOpen
  try dsimp only
  repeat' first
    | with_reducible assumption
    | with_reducible apply State.modTenant_kept
    | with_reducible apply State.refuse_kept
    | with_reducible apply State.finish_kept
    | with_reducible apply State.pushBack_kept
    | with_reducible apply State.looked_kept
    | with_reducible apply kept_ite
    | (with_reducible intro; with_reducible intros)
    | split

theorem execBrowseOpen_kept {s0 : State} {id : Nat} {s : State} (h : Kept s0 s) :
    KeptO s0 (execBrowseOpen id s) := by
  unfold execBrowseOpen
  try dsimp only
  repeat' first
    | with_reducible assumption
    | with_reducible apply State.serve_kept
    | with_reducible apply State.serveOpen_kept
    | with_reducible apply keptO_next
    | with_reducible apply keptO_fault
    | with_reducible apply keptO_ite
    | (with_reducible intro; with_reducible intros)

theorem State.serveClose_kept {s0 : State} {s : State} {d : Desc} (h : Kept s0 s) :
    Kept s0 (State.serveClose s d) := by
  unfold State.serveClose
  try dsimp only
  repeat' first
    | with_reducible assumption
    | with_reducible apply State.modTenant_kept
    | with_reducible apply State.refuse_kept
    | with_reducible apply State.finish_kept
    | (with_reducible intro; with_reducible intros)
    | split
    | with_reducible rfl
    | simp only [List.length_modify, List.length_map, List.length_mapIdx]
    | with_reducible refine kept_mk (t := _) ?_ ?_ ?_

theorem execBrowseClose_kept {s0 : State} {id : Nat} {s : State} (h : Kept s0 s) :
    KeptO s0 (execBrowseClose id s) := by
  unfold execBrowseClose
  try dsimp only
  repeat' first
    | with_reducible assumption
    | with_reducible apply State.serve_kept
    | with_reducible apply State.serveClose_kept
    | with_reducible apply keptO_next
    | with_reducible apply keptO_fault
    | with_reducible apply keptO_ite
    | (with_reducible intro; with_reducible intros)

theorem execHoldExpire_kept {s0 : State} {tenant : Nat} {hold : Nat} {s : State} (h : Kept s0 s) :
    KeptO s0 (execHoldExpire tenant hold s) := by
  unfold execHoldExpire
  try dsimp only
  repeat' first
    | with_reducible assumption
    | with_reducible apply State.modTenant_kept
    | with_reducible apply keptO_next
    | with_reducible apply keptO_fault
    | with_reducible apply keptO_ite
    | (with_reducible intro; with_reducible intros)
    | split
    | with_reducible rfl
    | simp only [List.length_modify, List.length_map, List.length_mapIdx]
    | with_reducible refine kept_mk (t := _) ?_ ?_ ?_

theorem execCursorExpire_kept {s0 : State} {tenant : Nat} {slot : Nat} {s : State} (h : Kept s0 s) :
    KeptO s0 (execCursorExpire tenant slot s) := by
  unfold execCursorExpire
  try dsimp only
  repeat' first
    | with_reducible assumption
    | with_reducible apply State.modTenant_kept
    | with_reducible apply keptO_next
    | with_reducible apply keptO_fault
    | with_reducible apply keptO_ite
    | (with_reducible intro; with_reducible intros)
    | split
    | with_reducible rfl
    | simp only [List.length_modify, List.length_map, List.length_mapIdx]
    | with_reducible refine kept_mk (t := _) ?_ ?_ ?_

theorem State.journalBack_kept {s0 : State} {s : State} {id : Nat} {retry : Nat} (h : Kept s0 s) :
    Kept s0 (State.journalBack s id retry) := by
  unfold State.journalBack
  try dsimp only
  repeat' first
    | with_reducible assumption
    | with_reducible apply State.bump_kept
    | with_reducible apply State.pushBack_kept
    | with_reducible rfl
    | simp only [List.length_modify, List.length_map, List.length_mapIdx]
    | with_reducible refine kept_mk (t := _) ?_ ?_ ?_

theorem State.fetchUnread_kept {s0 : State} {s : State} {id : Nat} {e : Entry} (h : Kept s0 s) :
    Kept s0 (State.fetchUnread s id e) := by
  unfold State.fetchUnread
  try dsimp only
  repeat' first
    | with_reducible assumption
    | with_reducible apply State.beginRead_kept
    | split

theorem State.acceptEntry_kept {s0 : State} {s : State} {id : Nat} {e : Entry} (h : Kept s0 s) :
    Kept s0 (State.acceptEntry s id e) := by
  unfold State.acceptEntry
  try dsimp only
  repeat' first
    | with_reducible assumption
    | with_reducible apply State.accept_kept
    | with_reducible apply State.acceptBy_kept
    | with_reducible apply kept_ite

theorem State.enterOrder_kept {s0 : State} {s : State} {id : Nat} {e : Entry} {late : Bool} (h : Kept s0 s) :
    Kept s0 (State.enterOrder s id e late) := by
  unfold State.enterOrder
  try dsimp only
  repeat' first
    | with_reducible assumption
    | with_reducible apply State.setPhase_kept
    | with_reducible apply State.joinBatch_kept
    | with_reducible apply State.enqueueLocal_kept
    | with_reducible apply State.fetchUnread_kept
    | with_reducible apply State.acceptEntry_kept
    | with_reducible apply kept_ite
    | split

theorem State.useHold_kept {s0 : State} {s : State} {fn : Nat} {hold : Option Hold} (h : Kept s0 s) :
    Kept s0 (State.useHold s fn hold) := by
  unfold State.useHold
  try dsimp only
  repeat' first
    | with_reducible assumption
    | with_reducible apply State.modTenant_kept
    | split

theorem State.serveWrite_kept {s0 : State} {s : State} {d : Desc} {late : Bool} (h : Kept s0 s) :
    Kept s0 (State.serveWrite s d late) := by
  unfold State.serveWrite
  try dsimp only
  repeat' first
    | with_reducible assumption
    | with_reducible apply State.refuse_kept
    | with_reducible apply State.pushBack_kept
    | with_reducible apply State.looked_kept
    | with_reducible apply State.journalBack_kept
    | with_reducible apply State.enterOrder_kept
    | with_reducible apply State.useHold_kept
    | with_reducible apply kept_ite
    | split

theorem State.writeCommand_kept {s0 : State} {s : State} {id : Nat} {op : Nat} {late : Bool} (h : Kept s0 s) :
    Kept s0 (State.writeCommand s id op late) := by
  unfold State.writeCommand
  try dsimp only
  repeat' first
    | with_reducible assumption
    | with_reducible apply State.serve_kept
    | with_reducible apply State.serveWrite_kept
    | (with_reducible intro; with_reducible intros)

theorem execPut_kept {s0 : State} {id : Nat} {late : Bool} {s : State} (h : Kept s0 s) :
    KeptO s0 (execPut id late s) := by
  unfold execPut
  try dsimp only
  repeat' first
    | with_reducible assumption
    | with_reducible apply State.writeCommand_kept
    | with_reducible apply keptO_next
    | with_reducible apply keptO_fault
    | with_reducible apply keptO_ite

theorem execPutIfVersion_kept {s0 : State} {id : Nat} {late : Bool} {s : State} (h : Kept s0 s) :
    KeptO s0 (execPutIfVersion id late s) := by
  unfold execPutIfVersion
  try dsimp only
  repeat' first
    | with_reducible assumption
    | with_reducible apply State.writeCommand_kept
    | with_reducible apply keptO_next
    | with_reducible apply keptO_fault
    | with_reducible apply keptO_ite

theorem execRewrite_kept {s0 : State} {id : Nat} {late : Bool} {s : State} (h : Kept s0 s) :
    KeptO s0 (execRewrite id late s) := by
  unfold execRewrite
  try dsimp only
  repeat' first
    | with_reducible assumption
    | with_reducible apply State.writeCommand_kept
    | with_reducible apply keptO_next
    | with_reducible apply keptO_fault
    | with_reducible apply keptO_ite

theorem execPatch_kept {s0 : State} {id : Nat} {late : Bool} {s : State} (h : Kept s0 s) :
    KeptO s0 (execPatch id late s) := by
  unfold execPatch
  try dsimp only
  repeat' first
    | with_reducible assumption
    | with_reducible apply State.writeCommand_kept
    | with_reducible apply keptO_next
    | with_reducible apply keptO_fault
    | with_reducible apply keptO_ite

theorem execDelete_kept {s0 : State} {id : Nat} {late : Bool} {s : State} (h : Kept s0 s) :
    KeptO s0 (execDelete id late s) := by
  unfold execDelete
  try dsimp only
  repeat' first
    | with_reducible assumption
    | with_reducible apply State.writeCommand_kept
    | with_reducible apply keptO_next
    | with_reducible apply keptO_fault
    | with_reducible apply keptO_ite

theorem execJournalRecordComplete_kept {s0 : State} {s : State} (h : Kept s0 s) :
    KeptO s0 (execJournalRecordComplete s) := by
  unfold execJournalRecordComplete
  try dsimp only
  repeat' first
    | with_reducible assumption
    | with_reducible apply State.commitEntry_kept
    | with_reducible apply State.watchJournal_kept
    | with_reducible apply State.popOrder_kept
    | with_reducible apply keptO_next
    | with_reducible apply keptO_fault
    | with_reducible apply keptO_ite
    | with_reducible apply kept_ite
    | split

theorem execDestageComplete_kept {s0 : State} {s : State} (h : Kept s0 s) :
    KeptO s0 (execDestageComplete s) := by
  unfold execDestageComplete
  try dsimp only
  repeat' first
    | with_reducible assumption
    | with_reducible apply State.watchJournal_kept
    | with_reducible apply keptO_next
    | with_reducible apply keptO_fault
    | with_reducible apply keptO_ite
    | with_reducible apply kept_ite
    | split
    | with_reducible rfl
    | simp only [List.length_modify, List.length_map, List.length_mapIdx]
    | with_reducible refine kept_mk (t := _) ?_ ?_ ?_
    | (show Media.words _ = _; rfl)

end Sys2Proof.Laws
end

