-- ==== Sys2Proof/Laws/KeptTally.lean ====
section
/-! SUPPORT. What every operation of Machine/Tally.lean keeps. -/
namespace Sys2Proof.Laws
open Sys2Proof Sys2Proof.Machine

theorem State.tallyStep_kept {s0 : State} {s : State} {i : Instr} (h : Kept s0 s) :
    Kept s0 (State.tallyStep s i) := by
  unfold State.tallyStep
  try dsimp only
  repeat' first
    | with_reducible assumption
    | with_reducible apply kept_ite
    | split
    | with_reducible rfl
    | simp only [List.length_modify, List.length_map, List.length_mapIdx]
    | with_reducible refine kept_mk (t := _) ?_ ?_ ?_

theorem execHalt_kept {s0 : State} {s : State} (h : Kept s0 s) :
    KeptO s0 (execHalt s) := by
  unfold execHalt
  try dsimp only
  repeat' first
    | with_reducible assumption
    | with_reducible apply State.tallyStep_kept
    | with_reducible apply keptO_next
    | with_reducible apply keptO_fault
    | with_reducible apply keptO_ite

theorem execLdi_kept {s0 : State} {a : Fin 16} {imm : BitVec 16} {s : State} (h : Kept s0 s) :
    KeptO s0 (execLdi a imm s) := by
  unfold execLdi
  try dsimp only
  repeat' first
    | with_reducible assumption
    | with_reducible apply State.tallyStep_kept
    | with_reducible apply keptO_next
    | with_reducible apply keptO_fault
    | with_reducible apply keptO_ite

theorem execLdc_kept {s0 : State} {a : Fin 16} {imm : BitVec 16} {s : State} (h : Kept s0 s) :
    KeptO s0 (execLdc a imm s) := by
  unfold execLdc
  try dsimp only
  repeat' first
    | with_reducible assumption
    | with_reducible apply State.tallyStep_kept
    | with_reducible apply keptO_next
    | with_reducible apply keptO_fault
    | with_reducible apply keptO_ite

theorem execMov_kept {s0 : State} {a : Fin 16} {b : Fin 16} {s : State} (h : Kept s0 s) :
    KeptO s0 (execMov a b s) := by
  unfold execMov
  try dsimp only
  repeat' first
    | with_reducible assumption
    | with_reducible apply State.tallyStep_kept
    | with_reducible apply keptO_next
    | with_reducible apply keptO_fault
    | with_reducible apply keptO_ite

theorem execAdd_kept {s0 : State} {a : Fin 16} {b : Fin 16} {s : State} (h : Kept s0 s) :
    KeptO s0 (execAdd a b s) := by
  unfold execAdd
  try dsimp only
  repeat' first
    | with_reducible assumption
    | with_reducible apply State.tallyStep_kept
    | with_reducible apply keptO_next
    | with_reducible apply keptO_fault
    | with_reducible apply keptO_ite

theorem execSub_kept {s0 : State} {a : Fin 16} {b : Fin 16} {s : State} (h : Kept s0 s) :
    KeptO s0 (execSub a b s) := by
  unfold execSub
  try dsimp only
  repeat' first
    | with_reducible assumption
    | with_reducible apply State.tallyStep_kept
    | with_reducible apply keptO_next
    | with_reducible apply keptO_fault
    | with_reducible apply keptO_ite

theorem execMul_kept {s0 : State} {a : Fin 16} {b : Fin 16} {s : State} (h : Kept s0 s) :
    KeptO s0 (execMul a b s) := by
  unfold execMul
  try dsimp only
  repeat' first
    | with_reducible assumption
    | with_reducible apply State.tallyStep_kept
    | with_reducible apply keptO_next
    | with_reducible apply keptO_fault
    | with_reducible apply keptO_ite

theorem execDiv_kept {s0 : State} {a : Fin 16} {b : Fin 16} {s : State} (h : Kept s0 s) :
    KeptO s0 (execDiv a b s) := by
  unfold execDiv
  try dsimp only
  repeat' first
    | with_reducible assumption
    | with_reducible apply State.tallyStep_kept
    | with_reducible apply keptO_next
    | with_reducible apply keptO_fault
    | with_reducible apply keptO_ite

theorem execRem_kept {s0 : State} {a : Fin 16} {b : Fin 16} {s : State} (h : Kept s0 s) :
    KeptO s0 (execRem a b s) := by
  unfold execRem
  try dsimp only
  repeat' first
    | with_reducible assumption
    | with_reducible apply State.tallyStep_kept
    | with_reducible apply keptO_next
    | with_reducible apply keptO_fault
    | with_reducible apply keptO_ite

theorem execMuldiv_kept {s0 : State} {a : Fin 16} {b : Fin 16} {imm : BitVec 16} {s : State} (h : Kept s0 s) :
    KeptO s0 (execMuldiv a b imm s) := by
  unfold execMuldiv
  try dsimp only
  repeat' first
    | with_reducible assumption
    | with_reducible apply State.tallyStep_kept
    | with_reducible apply keptO_next
    | with_reducible apply keptO_fault
    | with_reducible apply keptO_ite

theorem execNeg_kept {s0 : State} {a : Fin 16} {s : State} (h : Kept s0 s) :
    KeptO s0 (execNeg a s) := by
  unfold execNeg
  try dsimp only
  repeat' first
    | with_reducible assumption
    | with_reducible apply State.tallyStep_kept
    | with_reducible apply keptO_next
    | with_reducible apply keptO_fault
    | with_reducible apply keptO_ite

theorem execCmp_kept {s0 : State} {a : Fin 16} {b : Fin 16} {s : State} (h : Kept s0 s) :
    KeptO s0 (execCmp a b s) := by
  unfold execCmp
  try dsimp only
  repeat' first
    | with_reducible assumption
    | with_reducible apply State.tallyStep_kept
    | with_reducible apply keptO_next
    | with_reducible apply keptO_fault
    | with_reducible apply keptO_ite

theorem execBr_kept {s0 : State} {a : Fin 16} {imm : BitVec 16} {s : State} (h : Kept s0 s) :
    KeptO s0 (execBr a imm s) := by
  unfold execBr
  try dsimp only
  repeat' first
    | with_reducible assumption
    | with_reducible apply State.tallyStep_kept
    | with_reducible apply keptO_next
    | with_reducible apply keptO_fault
    | with_reducible apply keptO_ite

theorem execLdbe_kept {s0 : State} {a : Fin 16} {b : Fin 16} {imm : BitVec 16} {s : State} (h : Kept s0 s) :
    KeptO s0 (execLdbe a b imm s) := by
  unfold execLdbe
  try dsimp only
  repeat' first
    | with_reducible assumption
    | with_reducible apply State.tallyStep_kept
    | with_reducible apply keptO_next
    | with_reducible apply keptO_fault
    | with_reducible apply keptO_ite

theorem execStbe_kept {s0 : State} {a : Fin 16} {b : Fin 16} {imm : BitVec 16} {s : State} (h : Kept s0 s) :
    KeptO s0 (execStbe a b imm s) := by
  unfold execStbe
  try dsimp only
  repeat' first
    | with_reducible assumption
    | with_reducible apply State.tallyStep_kept
    | with_reducible apply keptO_next
    | with_reducible apply keptO_fault
    | with_reducible apply keptO_ite

theorem execLdpd_kept {s0 : State} {a : Fin 16} {b : Fin 16} {imm : BitVec 16} {s : State} (h : Kept s0 s) :
    KeptO s0 (execLdpd a b imm s) := by
  unfold execLdpd
  try dsimp only
  repeat' first
    | with_reducible assumption
    | with_reducible apply State.tallyStep_kept
    | with_reducible apply keptO_next
    | with_reducible apply keptO_fault
    | with_reducible apply keptO_ite

theorem execStpd_kept {s0 : State} {a : Fin 16} {b : Fin 16} {imm : BitVec 16} {s : State} (h : Kept s0 s) :
    KeptO s0 (execStpd a b imm s) := by
  unfold execStpd
  try dsimp only
  repeat' first
    | with_reducible assumption
    | with_reducible apply State.tallyStep_kept
    | with_reducible apply keptO_next
    | with_reducible apply keptO_fault
    | with_reducible apply keptO_ite

theorem execLdzd_kept {s0 : State} {a : Fin 16} {b : Fin 16} {imm : BitVec 16} {s : State} (h : Kept s0 s) :
    KeptO s0 (execLdzd a b imm s) := by
  unfold execLdzd
  try dsimp only
  repeat' first
    | with_reducible assumption
    | with_reducible apply State.tallyStep_kept
    | with_reducible apply keptO_next
    | with_reducible apply keptO_fault
    | with_reducible apply keptO_ite

theorem execStzd_kept {s0 : State} {a : Fin 16} {b : Fin 16} {imm : BitVec 16} {s : State} (h : Kept s0 s) :
    KeptO s0 (execStzd a b imm s) := by
  unfold execStzd
  try dsimp only
  repeat' first
    | with_reducible assumption
    | with_reducible apply State.tallyStep_kept
    | with_reducible apply keptO_next
    | with_reducible apply keptO_fault
    | with_reducible apply keptO_ite

theorem execLen_kept {s0 : State} {a : Fin 16} {imm : BitVec 16} {s : State} (h : Kept s0 s) :
    KeptO s0 (execLen a imm s) := by
  unfold execLen
  try dsimp only
  repeat' first
    | with_reducible assumption
    | with_reducible apply State.tallyStep_kept
    | with_reducible apply keptO_next
    | with_reducible apply keptO_fault
    | with_reducible apply keptO_ite

theorem execSetlen_kept {s0 : State} {a : Fin 16} {imm : BitVec 16} {s : State} (h : Kept s0 s) :
    KeptO s0 (execSetlen a imm s) := by
  unfold execSetlen
  try dsimp only
  repeat' first
    | with_reducible assumption
    | with_reducible apply State.tallyStep_kept
    | with_reducible apply keptO_next
    | with_reducible apply keptO_fault
    | with_reducible apply keptO_ite

theorem execRead_kept {s0 : State} {a : Fin 16} {imm : BitVec 16} {s : State} (h : Kept s0 s) :
    KeptO s0 (execRead a imm s) := by
  unfold execRead
  try dsimp only
  repeat' first
    | with_reducible assumption
    | with_reducible apply State.tallyStep_kept
    | with_reducible apply keptO_next
    | with_reducible apply keptO_fault
    | with_reducible apply keptO_ite

theorem execWrite_kept {s0 : State} {a : Fin 16} {imm : BitVec 16} {s : State} (h : Kept s0 s) :
    KeptO s0 (execWrite a imm s) := by
  unfold execWrite
  try dsimp only
  repeat' first
    | with_reducible assumption
    | with_reducible apply State.tallyStep_kept
    | with_reducible apply keptO_next
    | with_reducible apply keptO_fault
    | with_reducible apply keptO_ite

theorem execDel_kept {s0 : State} {a : Fin 16} {imm : BitVec 16} {s : State} (h : Kept s0 s) :
    KeptO s0 (execDel a imm s) := by
  unfold execDel
  try dsimp only
  repeat' first
    | with_reducible assumption
    | with_reducible apply State.tallyStep_kept
    | with_reducible apply keptO_next
    | with_reducible apply keptO_fault
    | with_reducible apply keptO_ite

theorem execLeg_kept {s0 : State} {a : Fin 16} {b : Fin 16} {imm : BitVec 16} {s : State} (h : Kept s0 s) :
    KeptO s0 (execLeg a b imm s) := by
  unfold execLeg
  try dsimp only
  repeat' first
    | with_reducible assumption
    | with_reducible apply State.tallyStep_kept
    | with_reducible apply keptO_next
    | with_reducible apply keptO_fault
    | with_reducible apply keptO_ite

theorem execClk_kept {s0 : State} {a : Fin 16} {imm : BitVec 16} {s : State} (h : Kept s0 s) :
    KeptO s0 (execClk a imm s) := by
  unfold execClk
  try dsimp only
  repeat' first
    | with_reducible assumption
    | with_reducible apply State.tallyStep_kept
    | with_reducible apply keptO_next
    | with_reducible apply keptO_fault
    | with_reducible apply keptO_ite

theorem execCall_kept {s0 : State} {imm : BitVec 16} {s : State} (h : Kept s0 s) :
    KeptO s0 (execCall imm s) := by
  unfold execCall
  try dsimp only
  repeat' first
    | with_reducible assumption
    | with_reducible apply State.tallyStep_kept
    | with_reducible apply keptO_next
    | with_reducible apply keptO_fault
    | with_reducible apply keptO_ite

theorem execFail_kept {s0 : State} {imm : BitVec 16} {s : State} (h : Kept s0 s) :
    KeptO s0 (execFail imm s) := by
  unfold execFail
  try dsimp only
  repeat' first
    | with_reducible assumption
    | with_reducible apply State.tallyStep_kept
    | with_reducible apply keptO_next
    | with_reducible apply keptO_fault
    | with_reducible apply keptO_ite

theorem execLong_kept {s0 : State} {imm : BitVec 16} {s : State} (h : Kept s0 s) :
    KeptO s0 (execLong imm s) := by
  unfold execLong
  try dsimp only
  repeat' first
    | with_reducible assumption
    | with_reducible apply State.tallyStep_kept
    | with_reducible apply keptO_next
    | with_reducible apply keptO_fault
    | with_reducible apply keptO_ite

end Sys2Proof.Laws
end

