-- ==== Sys2Proof/Laws/KeptPostings.lean ====
section
/-! SUPPORT. What every operation of Machine/Postings.lean keeps. -/
namespace Sys2Proof.Laws
open Sys2Proof Sys2Proof.Machine

theorem State.countRefusal_kept {s0 : State} {s : State} {kind : EntryKind} {tree : Option Tree} {st : Status} (h : Kept s0 s) :
    Kept s0 (State.countRefusal s kind tree st) := by
  unfold State.countRefusal
  try dsimp only
  repeat' first
    | with_reducible assumption
    | with_reducible apply State.bump_kept
    | with_reducible apply kept_ite
    | split

theorem State.acceptFirst_kept {s0 : State} {s : State} {e : Entry} (h : Kept s0 s) :
    Kept s0 (State.acceptFirst s e) := by
  unfold State.acceptFirst
  try dsimp only
  repeat' first
    | with_reducible assumption
    | with_reducible apply State.acceptEntry_kept
    | with_reducible apply kept_elim
    | (with_reducible intro; with_reducible intros)

theorem State.decideFront_kept {s0 : State} {s : State} {e : Entry} {tree : Option Tree} {r : Except (Status × Nat × Bytes) Effects} (h : Kept s0 s) :
    Kept s0 (State.decideFront s e tree r) := by
  unfold State.decideFront
  try dsimp only
  repeat' first
    | with_reducible assumption
    | with_reducible apply State.refuseEntry_kept
    | with_reducible apply State.commitEntry_kept
    | with_reducible apply State.popOrder_kept
    | with_reducible apply State.countRefusal_kept
    | with_reducible apply State.acceptFirst_kept
    | with_reducible apply kept_ite
    | split
    | with_reducible rfl
    | simp only [List.length_modify, List.length_map, List.length_mapIdx]
    | with_reducible refine kept_mk (t := _) ?_ ?_ ?_

theorem execPostingStage3_kept {s0 : State} {s : State} (h : Kept s0 s) :
    KeptO s0 (execPostingStage3 s) := by
  unfold execPostingStage3
  try dsimp only
  repeat' first
    | with_reducible assumption
    | with_reducible apply State.decideFront_kept
    | with_reducible apply keptO_next
    | with_reducible apply keptO_fault
    | with_reducible apply keptO_ite
    | with_reducible apply kept_ite
    | split

theorem State.fetchMore_kept {s0 : State} {s : State} {e : Entry} {keys : List Bytes} (h : Kept s0 s) :
    Kept s0 (State.fetchMore s e keys) := by
  have h1 := State.acceptFirst_kept (e := e) h
  unfold State.fetchMore
  dsimp only
  generalize s.acceptFirst e = t at h1
  exact h1

theorem execProgramTreeRun_kept {s0 : State} {s : State} (h : Kept s0 s) :
    KeptO s0 (execProgramTreeRun s) := by
  unfold execProgramTreeRun
  dsimp only
  repeat' first
    | with_reducible assumption
    | with_reducible apply State.fetchMore_kept
    | with_reducible apply keptO_ite
    | with_reducible apply State.decideFront_kept
    | with_reducible apply keptO_next
    | with_reducible apply keptO_fault
    | split
    | with_reducible rfl
    | simp only [List.length_modify, List.length_map, List.length_mapIdx]
    | with_reducible refine kept_mk (t := _) ?_ ?_ ?_

theorem State.useHolds_kept {s0 : State} {s : State} {fn : Nat} {ids : List Nat} (h : Kept s0 s) :
    Kept s0 (State.useHolds s fn ids) := by
  unfold State.useHolds
  try dsimp only
  repeat' first
    | with_reducible assumption
    | with_reducible apply State.modTenant_kept
    | with_reducible apply kept_foldl
    | (with_reducible intro; with_reducible intros)

theorem State.admitEngine_kept {s0 : State} {s : State} {d : Desc} {e : Entry} {late : Bool} (h : Kept s0 s) :
    Kept s0 (State.admitEngine s d e late) := by
  unfold State.admitEngine
  try dsimp only
  repeat' first
    | with_reducible assumption
    | with_reducible apply State.pushBack_kept
    | with_reducible apply State.notePeak_kept
    | with_reducible apply State.journalBack_kept
    | with_reducible apply State.enterOrder_kept
    | with_reducible apply State.useHolds_kept
    | with_reducible apply kept_ite
    | split

theorem State.servePost_kept {s0 : State} {s : State} {d : Desc} {late : Bool} (h : Kept s0 s) :
    Kept s0 (State.servePost s d late) := by
  unfold State.servePost
  try dsimp only
  repeat' first
    | with_reducible assumption
    | with_reducible apply State.bump_kept
    | with_reducible apply State.refuse_kept
    | with_reducible apply State.pushBack_kept
    | with_reducible apply State.looked_kept
    | with_reducible apply State.admitEngine_kept
    | with_reducible apply kept_ite
    | (with_reducible intro; with_reducible intros)
    | split
    | with_reducible rfl
    | simp only [List.length_modify, List.length_map, List.length_mapIdx]
    | with_reducible refine kept_mk (t := _) ?_ ?_ ?_

theorem execPost_kept {s0 : State} {id : Nat} {late : Bool} {s : State} (h : Kept s0 s) :
    KeptO s0 (execPost id late s) := by
  unfold execPost
  try dsimp only
  repeat' first
    | with_reducible assumption
    | with_reducible apply State.serve_kept
    | with_reducible apply State.servePost_kept
    | with_reducible apply keptO_next
    | with_reducible apply keptO_fault
    | with_reducible apply keptO_ite
    | (with_reducible intro; with_reducible intros)

theorem State.serveProgram_kept {s0 : State} {s : State} {d : Desc} {late : Bool} (h : Kept s0 s) :
    Kept s0 (State.serveProgram s d late) := by
  unfold State.serveProgram
  try dsimp only
  repeat' first
    | with_reducible assumption
    | with_reducible apply State.refuse_kept
    | with_reducible apply State.pushBack_kept
    | with_reducible apply State.looked_kept
    | with_reducible apply State.admitEngine_kept
    | with_reducible apply kept_ite
    | split
    | with_reducible rfl
    | simp only [List.length_modify, List.length_map, List.length_mapIdx]
    | with_reducible refine kept_mk (t := _) ?_ ?_ ?_

theorem execPostProgram_kept {s0 : State} {id : Nat} {late : Bool} {s : State} (h : Kept s0 s) :
    KeptO s0 (execPostProgram id late s) := by
  unfold execPostProgram
  try dsimp only
  repeat' first
    | with_reducible assumption
    | with_reducible apply State.serve_kept
    | with_reducible apply State.serveProgram_kept
    | with_reducible apply keptO_next
    | with_reducible apply keptO_fault
    | with_reducible apply keptO_ite
    | (with_reducible intro; with_reducible intros)

end Sys2Proof.Laws
end

