-- ==== Sys2Proof/Laws/KeptLong.lean ====
section
/-! SUPPORT. What every operation of Machine/Long.lean keeps. -/
namespace Sys2Proof.Laws
open Sys2Proof Sys2Proof.Machine

theorem State.beginLong_kept {s0 : State} {s : State} {id : Nat} {t : Nat} {op : Nat} {kind : LongKind} {count : Nat} (h : Kept s0 s) :
    Kept s0 (State.beginLong s id t op kind count) := by
  unfold State.beginLong
  try dsimp only
  repeat' first
    | with_reducible assumption
    | with_reducible apply State.modTenant_kept
    | with_reducible apply State.acceptBy_kept
    | (with_reducible intro; with_reducible intros)
    | with_reducible rfl
    | simp only [List.length_modify, List.length_map, List.length_mapIdx]
    | with_reducible refine kept_mk (t := _) ?_ ?_ ?_

theorem State.refuseBusy_kept {s0 : State} {s : State} {id : Nat} {t : Nat} (h : Kept s0 s) :
    Kept s0 (State.refuseBusy s id t) := by
  unfold State.refuseBusy
  try dsimp only
  repeat' first
    | with_reducible assumption
    | with_reducible apply State.answerBusy_kept
    | with_reducible apply State.busyParam_kept

theorem State.longGate_kept {s0 : State} {s : State} {d : Desc} {go : Nat → State → State} (h : Kept s0 s) (hf : ∀ v0 v1, Kept s0 v1 → Kept s0 (go v0 v1)) :
    Kept s0 (State.longGate s d go) := by
  unfold State.longGate
  try dsimp only
  repeat' first
    | with_reducible assumption
    | with_reducible apply State.refuse_kept
    | with_reducible apply State.refuseBusy_kept
    | with_reducible apply hf
    | split

theorem State.removeKeys_kept {s0 : State} {s : State} {t : Nat} {keys : List Bytes} (h : Kept s0 s) :
    Kept s0 (State.removeKeys s t keys) := by
  unfold State.removeKeys
  try dsimp only
  repeat' first
    | with_reducible assumption
    | with_reducible apply State.modTenant_kept
    | with_reducible apply State.addRecord_kept
    | (with_reducible intro; with_reducible intros)
    | with_reducible rfl
    | simp only [List.length_modify, List.length_map, List.length_mapIdx]
    | with_reducible refine kept_mk (t := _) ?_ ?_ ?_

theorem State.serveFormat_kept {s0 : State} {s : State} {d : Desc} (h : Kept s0 s) :
    Kept s0 (State.serveFormat s d) := by
  unfold State.serveFormat
  try dsimp only
  repeat' first
    | with_reducible assumption
    | with_reducible apply State.modTenant_kept
    | with_reducible apply State.refuse_kept
    | with_reducible apply State.queueSweep_kept
    | with_reducible apply State.beginLong_kept
    | with_reducible apply State.longGate_kept
    | with_reducible apply State.removeKeys_kept
    | with_reducible apply kept_ite
    | (with_reducible intro; with_reducible intros)

theorem execFormatTenant_kept {s0 : State} {id : Nat} {s : State} (h : Kept s0 s) :
    KeptO s0 (execFormatTenant id s) := by
  unfold execFormatTenant
  try dsimp only
  repeat' first
    | with_reducible assumption
    | with_reducible apply State.serve_kept
    | with_reducible apply State.serveFormat_kept
    | with_reducible apply keptO_next
    | with_reducible apply keptO_fault
    | with_reducible apply keptO_ite
    | (with_reducible intro; with_reducible intros)

theorem State.serveRekey_kept {s0 : State} {s : State} {d : Desc} (h : Kept s0 s) :
    Kept s0 (State.serveRekey s d) := by
  unfold State.serveRekey
  try dsimp only
  repeat' first
    | with_reducible assumption
    | with_reducible apply State.refuse_kept
    | with_reducible apply State.beginLong_kept
    | with_reducible apply State.longGate_kept
    | with_reducible apply kept_ite
    | (with_reducible intro; with_reducible intros)

theorem execRekey_kept {s0 : State} {id : Nat} {s : State} (h : Kept s0 s) :
    KeptO s0 (execRekey id s) := by
  unfold execRekey
  try dsimp only
  repeat' first
    | with_reducible assumption
    | with_reducible apply State.serve_kept
    | with_reducible apply State.serveRekey_kept
    | with_reducible apply keptO_next
    | with_reducible apply keptO_fault
    | with_reducible apply keptO_ite
    | (with_reducible intro; with_reducible intros)

theorem State.finishRekey_kept {s0 : State} {s : State} {t : Nat} (h : Kept s0 s) :
    Kept s0 (State.finishRekey s t) := by
  unfold State.finishRekey
  try dsimp only
  repeat' first
    | with_reducible assumption
    | with_reducible apply State.sealUp_kept
    | with_reducible apply kept_foldl
    | (with_reducible intro; with_reducible intros)
    | split
    | with_reducible rfl
    | simp only [List.length_modify, List.length_map, List.length_mapIdx]
    | with_reducible refine kept_mk (t := _) ?_ ?_ ?_

theorem State.serveCompact_kept {s0 : State} {s : State} {d : Desc} (h : Kept s0 s) :
    Kept s0 (State.serveCompact s d) := by
  unfold State.serveCompact
  try dsimp only
  repeat' first
    | with_reducible assumption
    | with_reducible apply State.queueSweep_kept
    | with_reducible apply State.beginLong_kept
    | with_reducible apply State.longGate_kept
    | (with_reducible intro; with_reducible intros)

theorem execCompact_kept {s0 : State} {id : Nat} {s : State} (h : Kept s0 s) :
    KeptO s0 (execCompact id s) := by
  unfold execCompact
  try dsimp only
  repeat' first
    | with_reducible assumption
    | with_reducible apply State.serve_kept
    | with_reducible apply State.serveCompact_kept
    | with_reducible apply keptO_next
    | with_reducible apply keptO_fault
    | with_reducible apply keptO_ite
    | (with_reducible intro; with_reducible intros)

end Sys2Proof.Laws
end

