-- ==== Sys2Proof/Laws/KeptSearch.lean ====
section
/-! SUPPORT. What every operation of Machine/Search.lean keeps. -/
namespace Sys2Proof.Laws
open Sys2Proof Sys2Proof.Machine

theorem State.modSlot_kept {s0 : State} {s : State} {n : Nat} {f : PatSlot → PatSlot} (h : Kept s0 s) :
    Kept s0 (State.modSlot s n f) := by
  unfold State.modSlot
  try dsimp only
  repeat' first
    | with_reducible assumption
    | with_reducible rfl
    | simp only [List.length_modify, List.length_map, List.length_mapIdx]
    | with_reducible refine kept_mk (t := _) ?_ ?_ ?_

theorem State.modScan_kept {s0 : State} {s : State} {id : Nat} {f : Scan → Scan} (h : Kept s0 s) :
    Kept s0 (State.modScan s id f) := by
  unfold State.modScan
  try dsimp only
  repeat' first
    | with_reducible assumption
    | with_reducible apply kept_ite
    | (with_reducible intro; with_reducible intros)
    | with_reducible rfl
    | simp only [List.length_modify, List.length_map, List.length_mapIdx]
    | with_reducible refine kept_mk (t := _) ?_ ?_ ?_

theorem State.dropScan_kept {s0 : State} {s : State} {id : Nat} (h : Kept s0 s) :
    Kept s0 (State.dropScan s id) := by
  unfold State.dropScan
  try dsimp only
  repeat' first
    | with_reducible assumption
    | (with_reducible intro; with_reducible intros)
    | with_reducible rfl
    | simp only [List.length_modify, List.length_map, List.length_mapIdx]
    | with_reducible refine kept_mk (t := _) ?_ ?_ ?_

theorem State.endScan_kept {s0 : State} {s : State} {c : Scan} {st : Status} {param : Nat} {key : Bytes} (h : Kept s0 s) :
    Kept s0 (State.endScan s c st param key) := by
  unfold State.endScan
  try dsimp only
  repeat' first
    | with_reducible assumption
    | with_reducible apply State.answer_kept
    | with_reducible apply State.modScan_kept
    | with_reducible apply State.dropScan_kept
    | with_reducible apply kept_ite
    | (with_reducible intro; with_reducible intros)
    | with_reducible rfl
    | simp only [List.length_modify, List.length_map, List.length_mapIdx]
    | with_reducible refine kept_mk (t := _) ?_ ?_ ?_

theorem State.scanOn_kept {s0 : State} {fuel : Nat} {s : State} {id : Nat} (h : Kept s0 s) :
    Kept s0 (State.scanOn fuel s id) := by
  induction fuel generalizing s with
  | zero => exact h
  | succ n ih =>
    unfold State.scanOn
    repeat' first
      | with_reducible assumption
      | with_reducible apply ih
      | with_reducible apply State.endScan_kept
      | with_reducible apply State.modScan_kept
      | with_reducible apply State.beginRead_kept
      | split

theorem State.scanRun_kept {s0 : State} {s : State} {id : Nat} (h : Kept s0 s) :
    Kept s0 (State.scanRun s id) := by
  unfold State.scanRun
  try dsimp only
  repeat' first
    | with_reducible assumption
    | with_reducible apply State.scanOn_kept
    | split

theorem State.beginScan_kept {s0 : State} {s : State} {d : Desc} {n : Nat} {count : Bool} (h : Kept s0 s) :
    Kept s0 (State.beginScan s d n count) := by
  unfold State.beginScan
  try dsimp only
  repeat' first
    | with_reducible assumption
    | with_reducible apply State.accept_kept
    | with_reducible apply State.beginLong_kept
    | with_reducible apply State.modSlot_kept
    | with_reducible apply State.scanRun_kept
    | with_reducible apply kept_ite
    | (with_reducible intro; with_reducible intros)
    | split
    | with_reducible rfl
    | simp only [List.length_modify, List.length_map, List.length_mapIdx]
    | with_reducible refine kept_mk (t := _) ?_ ?_ ?_

theorem State.startScan_kept {s0 : State} {s : State} {d : Desc} {count : Bool} (h : Kept s0 s) :
    Kept s0 (State.startScan s d count) := by
  unfold State.startScan
  try dsimp only
  repeat' first
    | with_reducible assumption
    | with_reducible apply State.bump_kept
    | with_reducible apply State.refuse_kept
    | with_reducible apply State.pushBack_kept
    | with_reducible apply State.beginScan_kept
    | with_reducible apply kept_ite
    | split

theorem State.serveScan_kept {s0 : State} {s : State} {d : Desc} {count : Bool} (h : Kept s0 s) :
    Kept s0 (State.serveScan s d count) := by
  unfold State.serveScan
  try dsimp only
  repeat' first
    | with_reducible assumption
    | with_reducible apply State.refuse_kept
    | with_reducible apply State.pushBack_kept
    | with_reducible apply State.looked_kept
    | with_reducible apply State.longGate_kept
    | with_reducible apply State.startScan_kept
    | with_reducible apply kept_ite
    | (with_reducible intro; with_reducible intros)
    | split

theorem execScan_kept {s0 : State} {id : Nat} {s : State} (h : Kept s0 s) :
    KeptO s0 (execScan id s) := by
  unfold execScan
  try dsimp only
  repeat' first
    | with_reducible assumption
    | with_reducible apply State.serve_kept
    | with_reducible apply State.serveScan_kept
    | with_reducible apply keptO_next
    | with_reducible apply keptO_fault
    | with_reducible apply keptO_ite
    | (with_reducible intro; with_reducible intros)

theorem execScanCount_kept {s0 : State} {id : Nat} {s : State} (h : Kept s0 s) :
    KeptO s0 (execScanCount id s) := by
  unfold execScanCount
  try dsimp only
  repeat' first
    | with_reducible assumption
    | with_reducible apply State.serve_kept
    | with_reducible apply State.serveScan_kept
    | with_reducible apply keptO_next
    | with_reducible apply keptO_fault
    | with_reducible apply keptO_ite
    | (with_reducible intro; with_reducible intros)

theorem execScanTimeLimit_kept {s0 : State} {id : Nat} {s : State} (h : Kept s0 s) :
    KeptO s0 (execScanTimeLimit id s) := by
  unfold execScanTimeLimit
  try dsimp only
  repeat' first
    | with_reducible assumption
    | with_reducible apply State.endScan_kept
    | with_reducible apply keptO_next
    | with_reducible apply keptO_fault
    | with_reducible apply keptO_ite
    | with_reducible apply kept_ite
    | split

theorem execPatternLoad_kept {s0 : State} {slot : Nat} {s : State} (h : Kept s0 s) :
    KeptO s0 (execPatternLoad slot s) := by
  unfold execPatternLoad
  try dsimp only
  repeat' first
    | with_reducible assumption
    | with_reducible apply State.bump_kept
    | with_reducible apply State.modSlot_kept
    | with_reducible apply State.modScan_kept
    | with_reducible apply State.scanRun_kept
    | with_reducible apply kept_elim
    | with_reducible apply keptO_next
    | with_reducible apply keptO_fault
    | with_reducible apply keptO_ite
    | with_reducible apply kept_ite
    | (with_reducible intro; with_reducible intros)
    | split
    | with_reducible rfl
    | simp only [List.length_modify, List.length_map, List.length_mapIdx]
    | with_reducible refine kept_mk (t := _) ?_ ?_ ?_

theorem execPatternPersist_kept {s0 : State} {slot : Nat} {s : State} (h : Kept s0 s) :
    KeptO s0 (execPatternPersist slot s) := by
  unfold execPatternPersist
  try dsimp only
  repeat' first
    | with_reducible assumption
    | with_reducible apply State.modSlot_kept
    | with_reducible apply keptO_next
    | with_reducible apply keptO_fault
    | with_reducible apply keptO_ite
    | (with_reducible intro; with_reducible intros)
    | with_reducible rfl
    | simp only [List.length_modify, List.length_map, List.length_mapIdx]
    | with_reducible refine kept_mk (t := _) ?_ ?_ ?_

theorem State.answerLong_kept {s0 : State} {s : State} {l : LongOp} {st : Status} {param : Nat} {key : Bytes} (h : Kept s0 s) :
    Kept s0 (State.answerLong s l st param key) := by
  unfold State.answerLong
  try dsimp only
  repeat' first
    | with_reducible assumption
    | with_reducible apply State.answer_kept
    | split

theorem State.finishWhole_kept {s0 : State} {s : State} {l : LongOp} {t : Nat} (h : Kept s0 s) :
    Kept s0 (State.finishWhole s l t) := by
  unfold State.finishWhole
  try dsimp only
  repeat' first
    | with_reducible assumption
    | with_reducible apply State.modTenant_kept
    | with_reducible apply State.answer_kept
    | with_reducible apply State.dropScan_kept
    | with_reducible apply kept_ite
    | split

theorem execLongOperationComplete_kept {s0 : State} {tenant : Nat} {s : State} (h : Kept s0 s) :
    KeptO s0 (execLongOperationComplete tenant s) := by
  unfold execLongOperationComplete
  try dsimp only
  repeat' first
    | with_reducible assumption
    | with_reducible apply State.modTenant_kept
    | with_reducible apply State.finishRekey_kept
    | with_reducible apply State.answerLong_kept
    | with_reducible apply State.finishWhole_kept
    | with_reducible apply keptO_next
    | with_reducible apply keptO_fault
    | with_reducible apply keptO_ite
    | split

theorem State.rulePerr_kept {s0 : State} {s : State} {shadowGood : Bool} (h : Kept s0 s) :
    Kept s0 (State.rulePerr s shadowGood) := by
  unfold State.rulePerr
  try dsimp only
  repeat' first
    | with_reducible assumption
    | with_reducible apply State.bump_kept
    | with_reducible apply State.raise_kept
    | with_reducible apply kept_ite
    | with_reducible rfl
    | simp only [List.length_modify, List.length_map, List.length_mapIdx]
    | with_reducible refine kept_mk (t := _) ?_ ?_ ?_

theorem execRuleParityError_kept {s0 : State} {_entry : Nat} {shadowGood : Bool} {s : State} (h : Kept s0 s) :
    KeptO s0 (execRuleParityError _entry shadowGood s) := by
  unfold execRuleParityError
  try dsimp only
  repeat' first
    | with_reducible assumption
    | with_reducible apply State.rulePerr_kept
    | with_reducible apply keptO_next
    | with_reducible apply keptO_fault
    | with_reducible apply keptO_ite

theorem State.stopScans_kept {s0 : State} {s : State} {slot : Nat} {b : Bool} (h : Kept s0 s) :
    Kept s0 (State.stopScans s slot b) := by
  unfold State.stopScans
  try dsimp only
  repeat' first
    | with_reducible assumption
    | with_reducible apply State.modTenant_kept
    | with_reducible apply State.refuse_kept
    | with_reducible apply State.dropScan_kept
    | with_reducible apply kept_foldl
    | with_reducible apply kept_ite
    | (with_reducible intro; with_reducible intros)

theorem State.automatonParity_kept {s0 : State} {s : State} {slot : Nat} {bank : Bool} {otherTileGood : Bool} (h : Kept s0 s) :
    Kept s0 (State.automatonParity s slot bank otherTileGood) := by
  unfold State.automatonParity
  try dsimp only
  repeat' first
    | with_reducible assumption
    | with_reducible apply State.bump_kept
    | with_reducible apply State.raise_kept
    | with_reducible apply State.modSlot_kept
    | with_reducible apply State.stopScans_kept
    | with_reducible apply kept_ite
    | (with_reducible intro; with_reducible intros)
    | split
    | simp only [Option.getD_some, Option.getD_none]

theorem execAutomatonParityError_kept {s0 : State} {slot : Nat} {bank : Bool} {otherTileGood : Bool} {s : State} (h : Kept s0 s) :
    KeptO s0 (execAutomatonParityError slot bank otherTileGood s) := by
  unfold execAutomatonParityError
  try dsimp only
  repeat' first
    | with_reducible assumption
    | with_reducible apply State.automatonParity_kept
    | with_reducible apply keptO_next
    | with_reducible apply keptO_fault
    | with_reducible apply keptO_ite

end Sys2Proof.Laws
end

