-- ==== Sys2Proof/Laws/KeptReadPath.lean ====
section
/-! SUPPORT. What every operation of Machine/ReadPath.lean keeps. -/
namespace Sys2Proof.Laws
open Sys2Proof Sys2Proof.Machine

theorem State.retireBlock_kept {s0 : State} {s : State} {id : BlockId} (h : Kept s0 s) :
    Kept s0 (State.retireBlock s id) := by
  unfold State.retireBlock
  try dsimp only
  repeat' first
    | with_reducible assumption
    | with_reducible apply State.bumpMed_kept
    | (with_reducible intro; with_reducible intros)
    | with_reducible rfl
    | simp only [List.length_modify, List.length_map, List.length_mapIdx]
    | with_reducible refine kept_mk (t := _) ?_ ?_ ?_
    | (show Media.words _ = _; rfl)

theorem State.setOffsets_kept {s0 : State} {s : State} {id : BlockId} {f : Int → Int} (h : Kept s0 s) :
    Kept s0 (State.setOffsets s id f) := by
  unfold State.setOffsets
  try dsimp only
  repeat' first
    | with_reducible assumption
    | with_reducible apply State.raise_kept
    | with_reducible apply kept_ite
    | (with_reducible intro; with_reducible intros)
    | split
    | with_reducible rfl
    | simp only [List.length_modify, List.length_map, List.length_mapIdx]
    | with_reducible refine kept_mk (t := _) ?_ ?_ ?_
    | (show Media.words _ = _; rfl)

theorem State.ladderCounted_kept {s0 : State} {s : State} {o : ReadOutcome} (h : Kept s0 s) :
    Kept s0 (State.ladderCounted s o) := by
  unfold State.ladderCounted
  try dsimp only
  repeat' first
    | with_reducible assumption
    | with_reducible apply State.bumpMed_kept
    | with_reducible apply kept_ite
    | split

theorem State.blockRead_kept {s0 : State} {s : State} {id : BlockId} {o : ReadOutcome} (h : Kept s0 s) :
    Kept s0 (State.blockRead s id o) := by
  unfold State.blockRead
  try dsimp only
  repeat' first
    | with_reducible assumption
    | with_reducible apply State.setOffsets_kept
    | with_reducible apply kept_ite
    | (with_reducible intro; with_reducible intros)
    | split
    | with_reducible rfl
    | simp only [List.length_modify, List.length_map, List.length_mapIdx]
    | with_reducible refine kept_mk (t := _) ?_ ?_ ?_
    | (show Media.words _ = _; rfl)

theorem State.flagLost_kept {s0 : State} {s : State} {v : Nat × Bytes × Nat} {why : Lost} (h : Kept s0 s) :
    Kept s0 (State.flagLost s v why) := by
  unfold State.flagLost
  try dsimp only
  repeat' first
    | with_reducible assumption
    | with_reducible apply State.modTenant_kept
    | with_reducible apply State.fence_kept
    | (with_reducible intro; with_reducible intros)
    | with_reducible rfl
    | simp only [List.length_modify, List.length_map, List.length_mapIdx]
    | with_reducible refine kept_mk (t := _) ?_ ?_ ?_
    | (show Media.words _ = _; rfl)

theorem State.loseValue_kept {s0 : State} {s : State} {v : Nat × Bytes × Nat} {why : Lost} (h : Kept s0 s) :
    Kept s0 (State.loseValue s v why) := by
  unfold State.loseValue
  try dsimp only
  repeat' first
    | with_reducible assumption
    | with_reducible apply State.raise_kept
    | with_reducible apply State.flagLost_kept
    | with_reducible apply kept_ite

theorem State.loseCodeword_kept {s0 : State} {s : State} {values : List (Nat × Bytes × Nat)} (h : Kept s0 s) :
    Kept s0 (State.loseCodeword s values) := by
  unfold State.loseCodeword
  try dsimp only
  repeat' first
    | with_reducible assumption
    | with_reducible apply State.raise_kept
    | with_reducible apply State.flagLost_kept
    | with_reducible apply kept_foldl
    | (with_reducible intro; with_reducible intros)

theorem State.recordRead_kept {s0 : State} {s : State} {t : Nat} {r : Rec} {o : ReadOutcome} {others : List (Nat × Bytes × Nat)} (h : Kept s0 s) :
    Kept s0 (State.recordRead s t r o others) := by
  unfold State.recordRead
  try dsimp only
  repeat' first
    | with_reducible assumption
    | with_reducible apply State.modTenant_kept
    | with_reducible apply State.bumpTkp_kept
    | with_reducible apply State.loseValue_kept
    | with_reducible apply State.loseCodeword_kept
    | (with_reducible intro; with_reducible intros)
    | split
    | with_reducible rfl
    | simp only [List.length_modify, List.length_map, List.length_mapIdx]
    | with_reducible refine kept_mk (t := _) ?_ ?_ ?_

theorem State.readDone_kept {s0 : State} {s : State} {id : Nat} {key : Bytes} (h : Kept s0 s) :
    Kept s0 (State.readDone s id key) := by
  unfold State.readDone
  try dsimp only
  repeat' first
    | with_reducible assumption
    | with_reducible apply kept_ite
    | (with_reducible intro; with_reducible intros)
    | with_reducible rfl
    | simp only [List.length_modify, List.length_map, List.length_mapIdx]
    | with_reducible refine kept_mk (t := _) ?_ ?_ ?_

theorem State.afterRead_kept {s0 : State} {s : State} {d : Desc} {r : Rec} {lost : Lost} (h : Kept s0 s) :
    Kept s0 (State.afterRead s d r lost) := by
  unfold State.afterRead
  try dsimp only
  repeat' first
    | with_reducible assumption
    | with_reducible apply State.settled_kept
    | with_reducible apply State.deliver_kept
    | with_reducible apply State.deliverLost_kept
    | with_reducible apply State.fetchUnread_kept
    | with_reducible apply State.scanRun_kept
    | with_reducible apply State.readDone_kept
    | with_reducible apply kept_ite
    | split

theorem State.readComplete_kept {s0 : State} {s : State} {id : Nat} {o : ReadOutcome} {blk : BlockId} {others : List (Nat × Bytes × Nat)} (h : Kept s0 s) :
    Kept s0 (State.readComplete s id o blk others) := by
  unfold State.readComplete
  try dsimp only
  repeat' first
    | with_reducible assumption
    | with_reducible apply State.modDesc_kept
    | with_reducible apply State.dropFlows_kept
    | with_reducible apply State.ladderCounted_kept
    | with_reducible apply State.blockRead_kept
    | with_reducible apply State.recordRead_kept
    | with_reducible apply State.afterRead_kept
    | with_reducible apply kept_ite
    | (with_reducible intro; with_reducible intros)
    | split
    | with_reducible rfl
    | simp only [List.length_modify, List.length_map, List.length_mapIdx]
    | with_reducible refine kept_mk (t := _) ?_ ?_ ?_

theorem State.resumeFloors_kept {s0 : State} {s : State} (h : Kept s0 s) :
    Kept s0 (State.resumeFloors s) := by
  unfold State.resumeFloors
  try dsimp only
  repeat' first
    | with_reducible assumption
    | with_reducible apply State.serveRead_kept
    | with_reducible apply State.scanRun_kept
    | with_reducible apply kept_foldl
    | with_reducible apply kept_ite
    | (with_reducible intro; with_reducible intros)

theorem execFloorTimeout_kept {s0 : State} {id : Nat} {s : State} (h : Kept s0 s) :
    KeptO s0 (execFloorTimeout id s) := by
  unfold execFloorTimeout
  try dsimp only
  repeat' first
    | with_reducible assumption
    | with_reducible apply State.refuse_kept
    | with_reducible apply State.endScan_kept
    | with_reducible apply keptO_next
    | with_reducible apply keptO_fault
    | with_reducible apply keptO_ite
    | with_reducible apply kept_ite
    | split

end Sys2Proof.Laws
end

