-- ==== Sys2Proof/Laws/KeptTenants.lean ====
section
/-! SUPPORT. What every operation of Machine/Tenants.lean keeps. -/
namespace Sys2Proof.Laws
open Sys2Proof Sys2Proof.Machine

theorem State.withdrawRead_kept {s0 : State} {s : State} {id : Nat} (h : Kept s0 s) :
    Kept s0 (State.withdrawRead s id) := by
  unfold State.withdrawRead
  try dsimp only
  repeat' first
    | with_reducible assumption
    | with_reducible apply State.modDesc_kept
    | with_reducible apply State.dropFlows_kept
    | with_reducible apply kept_ite
    | (with_reducible intro; with_reducible intros)
    | with_reducible rfl
    | simp only [List.length_modify, List.length_map, List.length_mapIdx]
    | with_reducible refine kept_mk (t := _) ?_ ?_ ?_

theorem State.withdraw_kept {s0 : State} {s : State} {id : Nat} (h : Kept s0 s) :
    Kept s0 (State.withdraw s id) := by
  unfold State.withdraw
  try dsimp only
  repeat' first
    | with_reducible assumption
    | with_reducible apply State.settled_kept
    | with_reducible apply State.dropScan_kept
    | with_reducible apply State.withdrawRead_kept
    | (with_reducible intro; with_reducible intros)
    | with_reducible rfl
    | simp only [List.length_modify, List.length_map, List.length_mapIdx]
    | with_reducible refine kept_mk (t := _) ?_ ?_ ?_

theorem State.giveUp_kept {s0 : State} {s : State} {d : Desc} (h : Kept s0 s) :
    Kept s0 (State.giveUp s d) := by
  unfold State.giveUp
  try dsimp only
  repeat' first
    | with_reducible assumption
    | with_reducible apply State.modPort_kept
    | with_reducible apply State.modDesc_kept
    | with_reducible apply State.withdraw_kept
    | (with_reducible intro; with_reducible intros)
    | split
    | with_reducible rfl
    | simp only [List.length_modify, List.length_map, List.length_mapIdx]
    | with_reducible refine kept_mk (t := _) ?_ ?_ ?_

theorem State.squash_kept {s0 : State} {s : State} {d : Desc} (h : Kept s0 s) :
    Kept s0 (State.squash s d) := by
  unfold State.squash
  try dsimp only
  repeat' first
    | with_reducible assumption
    | with_reducible apply State.bumpTnt_kept
    | with_reducible apply State.discardTransfer_kept
    | with_reducible apply State.giveUp_kept
    | with_reducible apply kept_ite

theorem State.dropTransfers_kept {s0 : State} {s : State} {t : Nat} (h : Kept s0 s) :
    Kept s0 (State.dropTransfers s t) := by
  unfold State.dropTransfers
  try dsimp only
  repeat' first
    | with_reducible assumption
    | with_reducible apply State.refuse_kept
    | with_reducible apply State.discardTransfer_kept
    | with_reducible apply kept_foldl
    | (with_reducible intro; with_reducible intros)

theorem State.dropUnsent_kept {s0 : State} {s : State} {t : Nat} (h : Kept s0 s) :
    Kept s0 (State.dropUnsent s t) := by
  unfold State.dropUnsent
  try dsimp only
  repeat' first
    | with_reducible assumption
    | with_reducible apply State.replyEntry_kept
    | with_reducible apply kept_foldl
    | (with_reducible intro; with_reducible intros)
    | with_reducible rfl
    | simp only [List.length_modify, List.length_map, List.length_mapIdx]
    | with_reducible refine kept_mk (t := _) ?_ ?_ ?_

theorem State.finishDue_kept {s0 : State} {s : State} {t : Nat} (h : Kept s0 s) :
    Kept s0 (State.finishDue s t) := by
  unfold State.finishDue
  try dsimp only
  repeat' first
    | with_reducible assumption
    | with_reducible apply State.modTenant_kept
    | with_reducible apply State.finish_kept
    | with_reducible apply kept_foldl
    | (with_reducible intro; with_reducible intros)
    | with_reducible rfl
    | simp only [List.length_modify, List.length_map, List.length_mapIdx]
    | with_reducible refine kept_mk (t := _) ?_ ?_ ?_

theorem State.beginReset_kept {s0 : State} {s : State} {t : Nat} {by_ : List Nat} {stopped : Bool} (h : Kept s0 s) :
    Kept s0 (State.beginReset s t by_ stopped) := by
  unfold State.beginReset
  try dsimp only
  repeat' first
    | with_reducible assumption
    | with_reducible apply State.modTenant_kept
    | with_reducible apply State.bumpTnt_kept
    | with_reducible apply State.dropTransfers_kept
    | with_reducible apply State.dropUnsent_kept
    | with_reducible apply State.finishDue_kept
    | (with_reducible intro; with_reducible intros)
    | with_reducible rfl
    | simp only [List.length_modify, List.length_map, List.length_mapIdx]
    | with_reducible refine kept_mk (t := _) ?_ ?_ ?_

theorem State.serveReset_kept {s0 : State} {s : State} {d : Desc} (h : Kept s0 s) :
    Kept s0 (State.serveReset s d) := by
  unfold State.serveReset
  try dsimp only
  repeat' first
    | with_reducible assumption
    | with_reducible apply State.modTenant_kept
    | with_reducible apply State.bumpTnt_kept
    | with_reducible apply State.refuse_kept
    | with_reducible apply State.accept_kept
    | with_reducible apply State.finishDue_kept
    | with_reducible apply State.beginReset_kept
    | with_reducible apply kept_ite
    | (with_reducible intro; with_reducible intros)
    | split
    | with_reducible rfl
    | simp only [List.length_modify, List.length_map, List.length_mapIdx]
    | with_reducible refine kept_mk (t := _) ?_ ?_ ?_

theorem execFunctionReset_kept {s0 : State} {id : Nat} {s : State} (h : Kept s0 s) :
    KeptO s0 (execFunctionReset id s) := by
  unfold execFunctionReset
  try dsimp only
  repeat' first
    | with_reducible assumption
    | with_reducible apply State.serve_kept
    | with_reducible apply State.serveReset_kept
    | with_reducible apply keptO_next
    | with_reducible apply keptO_fault
    | with_reducible apply keptO_ite
    | (with_reducible intro; with_reducible intros)

theorem State.partRekey_kept {s0 : State} {s : State} {t : Nat} (h : Kept s0 s) :
    Kept s0 (State.partRekey s t) := by
  unfold State.partRekey
  try dsimp only
  repeat' first
    | with_reducible assumption
    | with_reducible apply State.sealUp_kept
    | with_reducible apply kept_foldl
    | (with_reducible intro; with_reducible intros)
    | split
    | with_reducible rfl
    | simp only [List.length_modify, List.length_map, List.length_mapIdx]
    | with_reducible refine kept_mk (t := _) ?_ ?_ ?_

theorem State.cutLong_kept {s0 : State} {s : State} {t : Nat} (h : Kept s0 s) :
    Kept s0 (State.cutLong s t) := by
  unfold State.cutLong
  try dsimp only
  repeat' first
    | with_reducible assumption
    | with_reducible apply State.modTenant_kept
    | with_reducible apply State.bumpTnt_kept
    | with_reducible apply State.giveUp_kept
    | with_reducible apply State.partRekey_kept
    | with_reducible apply kept_ite
    | (with_reducible intro; with_reducible intros)
    | split
    | with_reducible rfl
    | simp only [List.length_modify, List.length_map, List.length_mapIdx]
    | with_reducible refine kept_mk (t := _) ?_ ?_ ?_

theorem State.squashAll_kept {s0 : State} {s : State} {t : Nat} (h : Kept s0 s) :
    Kept s0 (State.squashAll s t) := by
  unfold State.squashAll
  try dsimp only
  repeat' first
    | with_reducible assumption
    | with_reducible apply State.modTenant_kept
    | with_reducible apply State.takeBack_kept
    | with_reducible apply State.squash_kept
    | with_reducible apply State.cutLong_kept
    | with_reducible apply kept_foldl
    | (with_reducible intro; with_reducible intros)
    | with_reducible rfl
    | simp only [List.length_modify, List.length_map, List.length_mapIdx]
    | with_reducible refine kept_mk (t := _) ?_ ?_ ?_

theorem execDrainLimit_kept {s0 : State} {tenant : Nat} {s : State} (h : Kept s0 s) :
    KeptO s0 (execDrainLimit tenant s) := by
  unfold execDrainLimit
  try dsimp only
  repeat' first
    | with_reducible assumption
    | with_reducible apply State.squashAll_kept
    | with_reducible apply keptO_next
    | with_reducible apply keptO_fault
    | with_reducible apply keptO_ite
    | with_reducible apply kept_ite

theorem State.finishReset_kept {s0 : State} {s : State} {t : Nat} (h : Kept s0 s) :
    Kept s0 (State.finishReset s t) := by
  unfold State.finishReset
  try dsimp only
  repeat' first
    | with_reducible assumption
    | with_reducible apply State.modTenant_kept
    | with_reducible apply State.finishDue_kept
    | with_reducible apply kept_ite
    | (with_reducible intro; with_reducible intros)
    | with_reducible rfl
    | simp only [List.length_modify, List.length_map, List.length_mapIdx]
    | with_reducible refine kept_mk (t := _) ?_ ?_ ?_

theorem State.resetComplete_kept {s0 : State} {s : State} {t : Nat} (h : Kept s0 s) :
    Kept s0 (State.resetComplete s t) := by
  unfold State.resetComplete
  try dsimp only
  repeat' first
    | with_reducible assumption
    | with_reducible apply State.finishDue_kept
    | with_reducible apply State.finishReset_kept
    | with_reducible apply kept_ite
    | split

theorem execResetComplete_kept {s0 : State} {tenant : Nat} {s : State} (h : Kept s0 s) :
    KeptO s0 (execResetComplete tenant s) := by
  unfold execResetComplete
  try dsimp only
  repeat' first
    | with_reducible assumption
    | with_reducible apply State.resetComplete_kept
    | with_reducible apply keptO_next
    | with_reducible apply keptO_fault
    | with_reducible apply keptO_ite

theorem State.toScrub_kept {s0 : State} {s : State} {t : Nat} (h : Kept s0 s) :
    Kept s0 (State.toScrub s t) := by
  unfold State.toScrub
  try dsimp only
  repeat' first
    | with_reducible assumption
    | with_reducible rfl
    | simp only [List.length_modify, List.length_map, List.length_mapIdx]
    | with_reducible refine kept_mk (t := _) ?_ ?_ ?_

theorem State.wedge_kept {s0 : State} {s : State} {t : Nat} (h : Kept s0 s) :
    Kept s0 (State.wedge s t) := by
  unfold State.wedge
  try dsimp only
  repeat' first
    | with_reducible assumption
    | with_reducible apply State.modTenant_kept
    | with_reducible apply State.bump_kept
    | with_reducible apply State.raise_kept
    | with_reducible apply State.refuse_kept
    | with_reducible apply State.toScrub_kept
    | with_reducible apply kept_foldl
    | (with_reducible intro; with_reducible intros)
    | with_reducible rfl
    | simp only [List.length_modify, List.length_map, List.length_mapIdx]
    | with_reducible refine kept_mk (t := _) ?_ ?_ ?_

theorem execWedgeLimit_kept {s0 : State} {tenant : Nat} {s : State} (h : Kept s0 s) :
    KeptO s0 (execWedgeLimit tenant s) := by
  unfold execWedgeLimit
  try dsimp only
  repeat' first
    | with_reducible assumption
    | with_reducible apply State.wedge_kept
    | with_reducible apply keptO_next
    | with_reducible apply keptO_fault
    | with_reducible apply keptO_ite
    | with_reducible apply kept_ite

theorem State.stopTenant_kept {s0 : State} {s : State} {t : Nat} (h : Kept s0 s) :
    Kept s0 (State.stopTenant s t) := by
  unfold State.stopTenant
  try dsimp only
  repeat' first
    | with_reducible assumption
    | with_reducible apply State.modTenant_kept
    | with_reducible apply State.beginReset_kept
    | (with_reducible intro; with_reducible intros)
    | split
    | with_reducible rfl
    | simp only [List.length_modify, List.length_map, List.length_mapIdx]
    | with_reducible refine kept_mk (t := _) ?_ ?_ ?_

theorem State.startTenant_kept {s0 : State} {s : State} {t : Nat} (h : Kept s0 s) :
    Kept s0 (State.startTenant s t) := by
  unfold State.startTenant
  try dsimp only
  repeat' first
    | with_reducible assumption
    | with_reducible apply State.modTenant_kept
    | with_reducible apply kept_ite
    | (with_reducible intro; with_reducible intros)
    | with_reducible rfl
    | simp only [List.length_modify, List.length_map, List.length_mapIdx]
    | with_reducible refine kept_mk (t := _) ?_ ?_ ?_

theorem execTenantStop_kept {s0 : State} {tenant : Nat} {s : State} (h : Kept s0 s) :
    KeptO s0 (execTenantStop tenant s) := by
  unfold execTenantStop
  try dsimp only
  repeat' first
    | with_reducible assumption
    | with_reducible apply State.stopTenant_kept
    | with_reducible apply keptO_next
    | with_reducible apply keptO_fault
    | with_reducible apply keptO_ite

theorem execTenantStart_kept {s0 : State} {tenant : Nat} {s : State} (h : Kept s0 s) :
    KeptO s0 (execTenantStart tenant s) := by
  unfold execTenantStart
  try dsimp only
  repeat' first
    | with_reducible assumption
    | with_reducible apply State.startTenant_kept
    | with_reducible apply keptO_next
    | with_reducible apply keptO_fault
    | with_reducible apply keptO_ite

theorem State.shareTo_kept {s0 : State} {s : State} {t : Nat} {n : Nat} (h : Kept s0 s) :
    Kept s0 (State.shareTo s t n) := by
  unfold State.shareTo
  try dsimp only
  repeat' first
    | with_reducible assumption
    | with_reducible apply State.modTenant_kept
    | with_reducible apply State.fresh_kept
    | with_reducible apply kept_foldl
    | with_reducible apply kept_ite
    | (with_reducible intro; with_reducible intros)
    | with_reducible rfl
    | simp only [List.length_modify, List.length_map, List.length_mapIdx]
    | with_reducible refine kept_mk (t := _) ?_ ?_ ?_

theorem State.applyProfile_kept {s0 : State} {s : State} {t : Nat} {p : Profile} (h : Kept s0 s) :
    Kept s0 (State.applyProfile s t p) := by
  unfold State.applyProfile
  try dsimp only
  repeat' first
    | with_reducible assumption
    | with_reducible apply State.modTenant_kept
    | with_reducible apply State.shareTo_kept
    | (with_reducible intro; with_reducible intros)
    | with_reducible rfl
    | simp only [List.length_modify, List.length_map, List.length_mapIdx]
    | with_reducible refine kept_mk (t := _) ?_ ?_ ?_

theorem State.serveCreate_kept {s0 : State} {s : State} {d : Desc} (h : Kept s0 s) :
    Kept s0 (State.serveCreate s d) := by
  unfold State.serveCreate
  try dsimp only
  repeat' first
    | with_reducible assumption
    | with_reducible apply State.refuse_kept
    | with_reducible apply State.accept_kept
    | with_reducible apply kept_ite
    | (with_reducible intro; with_reducible intros)
    | split
    | with_reducible rfl
    | simp only [List.length_modify, List.length_map, List.length_mapIdx]
    | with_reducible refine kept_mk (t := _) ?_ ?_ ?_

theorem execTenantCreate_kept {s0 : State} {id : Nat} {s : State} (h : Kept s0 s) :
    KeptO s0 (execTenantCreate id s) := by
  unfold execTenantCreate
  try dsimp only
  repeat' first
    | with_reducible assumption
    | with_reducible apply State.serve_kept
    | with_reducible apply State.serveCreate_kept
    | with_reducible apply keptO_next
    | with_reducible apply keptO_fault
    | with_reducible apply keptO_ite
    | (with_reducible intro; with_reducible intros)

theorem execTenantCreateComplete_kept {s0 : State} {tenant : Nat} {s : State} (h : Kept s0 s) :
    KeptO s0 (execTenantCreateComplete tenant s) := by
  unfold execTenantCreateComplete
  try dsimp only
  repeat' first
    | with_reducible assumption
    | with_reducible apply State.modTenant_kept
    | with_reducible apply State.finish_kept
    | with_reducible apply State.shareTo_kept
    | with_reducible apply keptO_next
    | with_reducible apply keptO_fault
    | with_reducible apply keptO_ite
    | (with_reducible intro; with_reducible intros)
    | split
    | with_reducible rfl
    | simp only [List.length_modify, List.length_map, List.length_mapIdx]
    | with_reducible refine kept_mk (t := _) ?_ ?_ ?_

theorem State.serveResize_kept {s0 : State} {s : State} {d : Desc} (h : Kept s0 s) :
    Kept s0 (State.serveResize s d) := by
  unfold State.serveResize
  try dsimp only
  repeat' first
    | with_reducible assumption
    | with_reducible apply State.refuse_kept
    | with_reducible apply State.finish_kept
    | with_reducible apply State.accept_kept
    | with_reducible apply State.refuseBusy_kept
    | with_reducible apply State.applyProfile_kept
    | with_reducible apply kept_ite
    | split

theorem execTenantResize_kept {s0 : State} {id : Nat} {s : State} (h : Kept s0 s) :
    KeptO s0 (execTenantResize id s) := by
  unfold execTenantResize
  try dsimp only
  repeat' first
    | with_reducible assumption
    | with_reducible apply State.serve_kept
    | with_reducible apply State.serveResize_kept
    | with_reducible apply keptO_next
    | with_reducible apply keptO_fault
    | with_reducible apply keptO_ite
    | (with_reducible intro; with_reducible intros)

theorem State.serveRemove_kept {s0 : State} {s : State} {d : Desc} (h : Kept s0 s) :
    Kept s0 (State.serveRemove s d) := by
  unfold State.serveRemove
  try dsimp only
  repeat' first
    | with_reducible assumption
    | with_reducible apply State.modTenant_kept
    | with_reducible apply State.refuse_kept
    | with_reducible apply State.accept_kept
    | with_reducible apply State.refuseBusy_kept
    | with_reducible apply kept_ite
    | (with_reducible intro; with_reducible intros)
    | split
    | with_reducible rfl
    | simp only [List.length_modify, List.length_map, List.length_mapIdx]
    | with_reducible refine kept_mk (t := _) ?_ ?_ ?_

theorem execTenantRemove_kept {s0 : State} {id : Nat} {s : State} (h : Kept s0 s) :
    KeptO s0 (execTenantRemove id s) := by
  unfold execTenantRemove
  try dsimp only
  repeat' first
    | with_reducible assumption
    | with_reducible apply State.serve_kept
    | with_reducible apply State.serveRemove_kept
    | with_reducible apply keptO_next
    | with_reducible apply keptO_fault
    | with_reducible apply keptO_ite
    | (with_reducible intro; with_reducible intros)

theorem State.clearKeyPage_kept {s0 : State} {s : State} {t : Nat} (h : Kept s0 s) : Kept s0 (State.clearKeyPage s t) :=
  ⟨h.1, h.2.1, h.2.2.1, h.2.2.2.1, fun w => filter_counters_wf _ _ (h.2.2.2.2 w)⟩

theorem State.removeTenant_kept {s0 : State} {s : State} {t : Nat} (h : Kept s0 s) :
    Kept s0 (State.removeTenant s t) := by
  unfold State.removeTenant
  try dsimp only
  repeat' first
    | with_reducible assumption
    | with_reducible apply State.modTenant_kept
    | with_reducible apply State.restartSpaces_kept
    | with_reducible apply State.queueSweep_kept
    | with_reducible apply State.finishDue_kept
    | with_reducible apply State.toScrub_kept
    | with_reducible apply State.shareTo_kept
    | with_reducible apply State.clearKeyPage_kept
    | (with_reducible intro; with_reducible intros)
    | with_reducible rfl
    | simp only [List.length_modify, List.length_map, List.length_mapIdx]
    | with_reducible refine kept_mk (t := _) ?_ ?_ ?_

theorem execTenantRemoveComplete_kept {s0 : State} {tenant : Nat} {s : State} (h : Kept s0 s) :
    KeptO s0 (execTenantRemoveComplete tenant s) := by
  unfold execTenantRemoveComplete
  try dsimp only
  repeat' first
    | with_reducible assumption
    | with_reducible apply State.finish_kept
    | with_reducible apply State.removeTenant_kept
    | with_reducible apply keptO_next
    | with_reducible apply keptO_fault
    | with_reducible apply keptO_ite
    | with_reducible apply kept_ite
    | (with_reducible intro; with_reducible intros)
    | split
    | with_reducible rfl
    | simp only [List.length_modify, List.length_map, List.length_mapIdx]
    | with_reducible refine kept_mk (t := _) ?_ ?_ ?_

end Sys2Proof.Laws
end

