-- ==== Sys2Proof/Laws/KeptClock.lean ====
section
/-! SUPPORT. What every operation of Machine/Clock.lean keeps. -/
namespace Sys2Proof.Laws
open Sys2Proof Sys2Proof.Machine

theorem State.flagStepBack_kept {s0 : State} {s : State} (h : Kept s0 s) :
    Kept s0 (State.flagStepBack s) := by
  unfold State.flagStepBack
  try dsimp only
  repeat' first
    | with_reducible assumption
    | with_reducible apply kept_ite
    | (with_reducible intro; with_reducible intros)
    | with_reducible rfl
    | simp only [List.length_modify, List.length_map, List.length_mapIdx]
    | with_reducible refine kept_mk (t := _) ?_ ?_ ?_

theorem State.applyTime_kept {s0 : State} {s : State} {to_ : Nat} (h : Kept s0 s) :
    Kept s0 (State.applyTime s to_) := by
  unfold State.applyTime
  try dsimp only
  repeat' first
    | with_reducible assumption
    | with_reducible apply State.flagStepBack_kept
    | with_reducible apply kept_ite
    | with_reducible rfl
    | simp only [List.length_modify, List.length_map, List.length_mapIdx]
    | with_reducible refine kept_mk (t := _) ?_ ?_ ?_

theorem State.setTimeAt_kept {s0 : State} {s : State} {id : Option Nat} {param : Nat} (h : Kept s0 s) :
    Kept s0 (State.setTimeAt s id param) := by
  unfold State.setTimeAt
  try dsimp only
  repeat' first
    | with_reducible assumption
    | with_reducible apply State.refuse_kept
    | with_reducible apply State.applyTime_kept
    | with_reducible apply kept_ite
    | split

theorem State.orderSystem_kept {s0 : State} {s : State} {e : BEntry} (h : Kept s0 s) :
    Kept s0 (State.orderSystem s e) := by
  unfold State.orderSystem
  try dsimp only
  repeat' first
    | with_reducible assumption
    | with_reducible rfl
    | simp only [List.length_modify, List.length_map, List.length_mapIdx]
    | with_reducible refine kept_mk (t := _) ?_ ?_ ?_

theorem State.serveSetTime_kept {s0 : State} {s : State} {d : Desc} (h : Kept s0 s) :
    Kept s0 (State.serveSetTime s d) := by
  unfold State.serveSetTime
  try dsimp only
  repeat' first
    | with_reducible assumption
    | with_reducible apply State.refuse_kept
    | with_reducible apply State.acceptBy_kept
    | with_reducible apply State.setTimeAt_kept
    | with_reducible apply State.orderSystem_kept
    | with_reducible apply kept_ite

theorem execSetTime_kept {s0 : State} {id : Nat} {s : State} (h : Kept s0 s) :
    KeptO s0 (execSetTime id s) := by
  unfold execSetTime
  try dsimp only
  repeat' first
    | with_reducible assumption
    | with_reducible apply State.serve_kept
    | with_reducible apply State.serveSetTime_kept
    | with_reducible apply keptO_next
    | with_reducible apply keptO_fault
    | with_reducible apply keptO_ite
    | (with_reducible intro; with_reducible intros)

theorem execSlewEnd_kept {s0 : State} {s : State} (h : Kept s0 s) :
    KeptO s0 (execSlewEnd s) := by
  unfold execSlewEnd
  try dsimp only
  repeat' first
    | with_reducible assumption
    | with_reducible apply keptO_next
    | with_reducible apply keptO_fault
    | with_reducible apply keptO_ite
    | with_reducible apply kept_ite
    | with_reducible rfl
    | simp only [List.length_modify, List.length_map, List.length_mapIdx]
    | with_reducible refine kept_mk (t := _) ?_ ?_ ?_

theorem State.serveCloseDay_kept {s0 : State} {s : State} {d : Desc} (h : Kept s0 s) :
    Kept s0 (State.serveCloseDay s d) := by
  unfold State.serveCloseDay
  try dsimp only
  repeat' first
    | with_reducible assumption
    | with_reducible apply State.refuse_kept
    | with_reducible apply State.accept_kept
    | with_reducible apply State.pushBack_kept
    | with_reducible apply State.acceptBy_kept
    | with_reducible apply State.joinBatch_kept
    | with_reducible apply State.enqueueLocal_kept
    | with_reducible apply kept_ite
    | split

theorem execCloseDay_kept {s0 : State} {id : Nat} {s : State} (h : Kept s0 s) :
    KeptO s0 (execCloseDay id s) := by
  unfold execCloseDay
  try dsimp only
  repeat' first
    | with_reducible assumption
    | with_reducible apply State.serve_kept
    | with_reducible apply State.serveCloseDay_kept
    | with_reducible apply keptO_next
    | with_reducible apply keptO_fault
    | with_reducible apply keptO_ite
    | (with_reducible intro; with_reducible intros)

theorem State.setDay_kept {s0 : State} {s : State} {t : Nat} {day : Nat} (h : Kept s0 s) :
    Kept s0 (State.setDay s t day) := by
  unfold State.setDay
  try dsimp only
  repeat' first
    | with_reducible assumption
    | with_reducible apply State.modTenant_kept
    | with_reducible apply kept_ite
    | (with_reducible intro; with_reducible intros)
    | with_reducible rfl
    | simp only [List.length_modify, List.length_map, List.length_mapIdx]
    | with_reducible refine kept_mk (t := _) ?_ ?_ ?_

theorem execLckTdaySet_kept {s0 : State} {tenant : Nat} {day : Word} {s : State} (h : Kept s0 s) :
    KeptO s0 (execLckTdaySet tenant day s) := by
  unfold execLckTdaySet
  try dsimp only
  repeat' first
    | with_reducible assumption
    | with_reducible apply State.setDay_kept
    | with_reducible apply keptO_next
    | with_reducible apply keptO_fault
    | with_reducible apply keptO_ite

theorem execMeteringPeriodClose_kept {s0 : State} {tenant : Nat} {s : State} (h : Kept s0 s) :
    KeptO s0 (execMeteringPeriodClose tenant s) := by
  unfold execMeteringPeriodClose
  try dsimp only
  repeat' first
    | with_reducible assumption
    | with_reducible apply State.modTenant_kept
    | with_reducible apply keptO_next
    | with_reducible apply keptO_fault
    | with_reducible apply keptO_ite
    | with_reducible apply kept_ite
    | (with_reducible intro; with_reducible intros)

theorem State.serveQuery_kept {s0 : State} {s : State} {d : Desc} (h : Kept s0 s) :
    Kept s0 (State.serveQuery s d) := by
  unfold State.serveQuery
  try dsimp only
  repeat' first
    | with_reducible assumption
    | with_reducible apply State.answer_kept
    | with_reducible apply State.refuse_kept
    | with_reducible apply kept_ite
    | split
    | with_reducible rfl
    | simp only [List.length_modify, List.length_map, List.length_mapIdx]
    | with_reducible refine kept_mk (t := _) ?_ ?_ ?_

theorem execQuery_kept {s0 : State} {id : Nat} {s : State} (h : Kept s0 s) :
    KeptO s0 (execQuery id s) := by
  unfold execQuery
  try dsimp only
  repeat' first
    | with_reducible assumption
    | with_reducible apply State.serve_kept
    | with_reducible apply State.serveQuery_kept
    | with_reducible apply keptO_next
    | with_reducible apply keptO_fault
    | with_reducible apply keptO_ite
    | (with_reducible intro; with_reducible intros)

theorem execWallTimeJournal_kept {s0 : State} {s : State} (h : Kept s0 s) :
    KeptO s0 (execWallTimeJournal s) := by
  unfold execWallTimeJournal
  try dsimp only
  repeat' first
    | with_reducible assumption
    | with_reducible apply keptO_next
    | with_reducible apply keptO_fault
    | with_reducible apply keptO_ite
    | with_reducible apply kept_ite
    | with_reducible rfl
    | simp only [List.length_modify, List.length_map, List.length_mapIdx]
    | with_reducible refine kept_mk (t := _) ?_ ?_ ?_

theorem execTickCountJournal_kept {s0 : State} {s : State} (h : Kept s0 s) :
    KeptO s0 (execTickCountJournal s) := by
  unfold execTickCountJournal
  try dsimp only
  repeat' first
    | with_reducible assumption
    | with_reducible apply keptO_next
    | with_reducible apply keptO_fault
    | with_reducible apply keptO_ite
    | with_reducible rfl
    | simp only [List.length_modify, List.length_map, List.length_mapIdx]
    | with_reducible refine kept_mk (t := _) ?_ ?_ ?_

end Sys2Proof.Laws
end

