-- ==== Sys2Proof/Laws/KeptRules.lean ====
section
/-! SUPPORT. What every operation of Machine/Rules.lean keeps. -/
namespace Sys2Proof.Laws
open Sys2Proof Sys2Proof.Machine

theorem State.stageRules_kept {s0 : State} {s : State} {t : Nat} {clearVoid : Bool} {es : List ImageEntry} (h : Kept s0 s) :
    Kept s0 (State.stageRules s t clearVoid es) := by
  unfold State.stageRules
  try dsimp only
  repeat' first
    | with_reducible assumption
    | with_reducible apply State.fresh_kept
    | with_reducible apply kept_foldl
    | with_reducible apply kept_ite
    | (with_reducible intro; with_reducible intros)
    | with_reducible rfl
    | simp only [List.length_modify, List.length_map, List.length_mapIdx]
    | with_reducible refine kept_mk (t := _) ?_ ?_ ?_

theorem State.serveRuleLoad_kept {s0 : State} {s : State} {d : Desc} (h : Kept s0 s) :
    Kept s0 (State.serveRuleLoad s d) := by
  unfold State.serveRuleLoad
  try dsimp only
  repeat' first
    | with_reducible assumption
    | with_reducible apply State.refuse_kept
    | with_reducible apply State.accept_kept
    | with_reducible apply State.pushBack_kept
    | with_reducible apply State.refuseBusy_kept
    | with_reducible apply State.stageRules_kept
    | with_reducible apply kept_ite
    | (with_reducible intro; with_reducible intros)
    | split
    | with_reducible rfl
    | simp only [List.length_modify, List.length_map, List.length_mapIdx]
    | with_reducible refine kept_mk (t := _) ?_ ?_ ?_

theorem execRuleLoad_kept {s0 : State} {id : Nat} {s : State} (h : Kept s0 s) :
    KeptO s0 (execRuleLoad id s) := by
  unfold execRuleLoad
  try dsimp only
  repeat' first
    | with_reducible assumption
    | with_reducible apply State.serve_kept
    | with_reducible apply State.serveRuleLoad_kept
    | with_reducible apply keptO_next
    | with_reducible apply keptO_fault
    | with_reducible apply keptO_ite
    | (with_reducible intro; with_reducible intros)

theorem State.removeOutside_kept {s0 : State} {s : State} {t : Nat} {us : List Nat} {after : List Rule} (h : Kept s0 s) :
    Kept s0 (State.removeOutside s t us after) := by
  unfold State.removeOutside
  try dsimp only
  repeat' first
    | with_reducible assumption
    | with_reducible apply State.modTenant_kept
    | with_reducible apply State.queueSweep_kept
    | with_reducible apply State.removeKeys_kept
    | with_reducible apply kept_foldl
    | with_reducible apply kept_ite
    | (with_reducible intro; with_reducible intros)
    | with_reducible rfl
    | simp only [List.length_modify, List.length_map, List.length_mapIdx]
    | with_reducible refine kept_mk (t := _) ?_ ?_ ?_

theorem State.applyRules_kept {s0 : State} {s : State} {l : RuleLoading} (h : Kept s0 s) :
    Kept s0 (State.applyRules s l) := by
  unfold State.applyRules
  try dsimp only
  repeat' first
    | with_reducible assumption
    | with_reducible apply State.modTenant_kept
    | with_reducible apply State.raiseAbove_kept
    | with_reducible apply State.removeOutside_kept
    | with_reducible apply kept_foldl
    | (with_reducible intro; with_reducible intros)
    | split
    | with_reducible rfl
    | simp only [List.length_modify, List.length_map, List.length_mapIdx]
    | with_reducible refine kept_mk (t := _) ?_ ?_ ?_

theorem State.validateRules_kept {s0 : State} {s : State} {l : RuleLoading} (h : Kept s0 s) :
    Kept s0 (State.validateRules s l) := by
  unfold State.validateRules
  try dsimp only
  repeat' first
    | with_reducible assumption
    | with_reducible apply State.bump_kept
    | with_reducible apply State.finish_kept
    | with_reducible apply State.applyRules_kept

theorem State.cutLoad_kept {s0 : State} {s : State} (h : Kept s0 s) :
    Kept s0 (State.cutLoad s) := by
  unfold State.cutLoad
  try dsimp only
  repeat' first
    | with_reducible assumption
    | with_reducible apply State.applyRules_kept
    | split
    | with_reducible rfl
    | simp only [List.length_modify, List.length_map, List.length_mapIdx]
    | with_reducible refine kept_mk (t := _) ?_ ?_ ?_

theorem execRuleLoadValidate_kept {s0 : State} {s : State} (h : Kept s0 s) :
    KeptO s0 (execRuleLoadValidate s) := by
  unfold execRuleLoadValidate
  try dsimp only
  repeat' first
    | with_reducible assumption
    | with_reducible apply State.validateRules_kept
    | with_reducible apply keptO_next
    | with_reducible apply keptO_fault
    | with_reducible apply keptO_ite
    | split

end Sys2Proof.Laws
end

