-- ==== Sys2Proof/Laws/KeptKeys.lean ====
section
/-! SUPPORT. What every operation of Machine/Keys.lean keeps. -/
namespace Sys2Proof.Laws
open Sys2Proof Sys2Proof.Machine

theorem State.countUnwrapFail_kept {s0 : State} {s : State} {target : Nat} (h : Kept s0 s) :
    Kept s0 (State.countUnwrapFail s target) := by
  unfold State.countUnwrapFail
  try dsimp only
  repeat' first
    | with_reducible assumption
    | with_reducible apply State.bump_kept
    | with_reducible apply State.bumpTkp_kept
    | with_reducible apply kept_ite

theorem State.serveKeyLoad_kept {s0 : State} {s : State} {d : Desc} (h : Kept s0 s) :
    Kept s0 (State.serveKeyLoad s d) := by
  unfold State.serveKeyLoad
  try dsimp only
  repeat' first
    | with_reducible assumption
    | with_reducible apply State.bump_kept
    | with_reducible apply State.refuse_kept
    | with_reducible apply State.accept_kept
    | with_reducible apply State.refuseBusy_kept
    | with_reducible apply State.countUnwrapFail_kept
    | with_reducible apply kept_ite
    | split
    | with_reducible rfl
    | simp only [List.length_modify, List.length_map, List.length_mapIdx]
    | with_reducible refine kept_mk (t := _) ?_ ?_ ?_

theorem execKeyLoad_kept {s0 : State} {id : Nat} {s : State} (h : Kept s0 s) :
    KeptO s0 (execKeyLoad id s) := by
  unfold execKeyLoad
  try dsimp only
  repeat' first
    | with_reducible assumption
    | with_reducible apply State.serve_kept
    | with_reducible apply State.serveKeyLoad_kept
    | with_reducible apply keptO_next
    | with_reducible apply keptO_fault
    | with_reducible apply keptO_ite
    | (with_reducible intro; with_reducible intros)

theorem State.installKey_kept {s0 : State} {s : State} {k : KeySlot} (h : Kept s0 s) :
    Kept s0 (State.installKey s k) := by
  unfold State.installKey
  try dsimp only
  repeat' first
    | with_reducible assumption
    | with_reducible apply State.restartSpaces_kept
    | with_reducible apply kept_ite
    | (with_reducible intro; with_reducible intros)
    | split
    | with_reducible rfl
    | simp only [List.length_modify, List.length_map, List.length_mapIdx]
    | with_reducible refine kept_mk (t := _) ?_ ?_ ?_

theorem execKeyLoadComplete_kept {s0 : State} {s : State} (h : Kept s0 s) :
    KeptO s0 (execKeyLoadComplete s) := by
  unfold execKeyLoadComplete
  try dsimp only
  repeat' first
    | with_reducible assumption
    | with_reducible apply State.finish_kept
    | with_reducible apply State.installKey_kept
    | with_reducible apply keptO_next
    | with_reducible apply keptO_fault
    | with_reducible apply keptO_ite
    | split
    | with_reducible rfl
    | simp only [List.length_modify, List.length_map, List.length_mapIdx]
    | with_reducible refine kept_mk (t := _) ?_ ?_ ?_

theorem execKeyRecordPersist_kept {s0 : State} {record : Nat} {s : State} (h : Kept s0 s) :
    KeptO s0 (execKeyRecordPersist record s) := by
  unfold execKeyRecordPersist
  try dsimp only
  repeat' first
    | with_reducible assumption
    | with_reducible apply keptO_next
    | with_reducible apply keptO_fault
    | with_reducible apply keptO_ite
    | with_reducible apply kept_ite
    | (with_reducible intro; with_reducible intros)
    | with_reducible rfl
    | simp only [List.length_modify, List.length_map, List.length_mapIdx]
    | with_reducible refine kept_mk (t := _) ?_ ?_ ?_

theorem State.loseGeneration_kept {s0 : State} {s : State} {t : Nat} {gen : Nat} (h : Kept s0 s) :
    Kept s0 (State.loseGeneration s t gen) := by
  unfold State.loseGeneration
  try dsimp only
  repeat' first
    | with_reducible assumption
    | with_reducible apply State.modTenant_kept
    | with_reducible apply State.raise_kept
    | with_reducible apply State.fence_kept
    | with_reducible apply kept_foldl
    | with_reducible apply kept_ite
    | (with_reducible intro; with_reducible intros)
    | split
    | with_reducible rfl
    | simp only [List.length_modify, List.length_map, List.length_mapIdx]
    | with_reducible refine kept_mk (t := _) ?_ ?_ ?_
    | (show Media.words _ = _; rfl)

theorem State.eraseGeneration_kept {s0 : State} {s : State} {t : Nat} {value : Nat} (h : Kept s0 s) :
    Kept s0 (State.eraseGeneration s t value) := by
  unfold State.eraseGeneration
  try dsimp only
  repeat' first
    | with_reducible assumption
    | with_reducible apply State.loseGeneration_kept
    | with_reducible apply kept_ite
    | (with_reducible intro; with_reducible intros)
    | with_reducible rfl
    | simp only [List.length_modify, List.length_map, List.length_mapIdx]
    | with_reducible refine kept_mk (t := _) ?_ ?_ ?_

theorem execTkpGenErase_kept {s0 : State} {tenant : Nat} {value : Word} {s : State} (h : Kept s0 s) :
    KeptO s0 (execTkpGenErase tenant value s) := by
  unfold execTkpGenErase
  try dsimp only
  repeat' first
    | with_reducible assumption
    | with_reducible apply State.eraseGeneration_kept
    | with_reducible apply keptO_next
    | with_reducible apply keptO_fault
    | with_reducible apply keptO_ite

theorem execTackRemask_kept {s0 : State} {slot : Nat} {mask : Bytes} {s : State} (h : Kept s0 s) :
    KeptO s0 (execTackRemask slot mask s) := by
  unfold execTackRemask
  try dsimp only
  repeat' first
    | with_reducible assumption
    | with_reducible apply keptO_next
    | with_reducible apply keptO_fault
    | with_reducible apply keptO_ite
    | with_reducible apply kept_ite
    | (with_reducible intro; with_reducible intros)
    | with_reducible rfl
    | simp only [List.length_modify, List.length_map, List.length_mapIdx]
    | with_reducible refine kept_mk (t := _) ?_ ?_ ?_

theorem State.loseKey_kept {s0 : State} {s : State} {k : KeySlot} (h : Kept s0 s) :
    Kept s0 (State.loseKey s k) := by
  unfold State.loseKey
  try dsimp only
  repeat' first
    | with_reducible assumption
    | with_reducible apply State.raise_kept
    | with_reducible apply State.loseGeneration_kept
    | with_reducible apply kept_ite
    | (with_reducible intro; with_reducible intros)
    | with_reducible rfl
    | simp only [List.length_modify, List.length_map, List.length_mapIdx]
    | with_reducible refine kept_mk (t := _) ?_ ?_ ?_

theorem execTackParityError_kept {s0 : State} {slot : Nat} {recordGood : Bool} {s : State} (h : Kept s0 s) :
    KeptO s0 (execTackParityError slot recordGood s) := by
  unfold execTackParityError
  try dsimp only
  repeat' first
    | with_reducible assumption
    | with_reducible apply State.bump_kept
    | with_reducible apply State.loseKey_kept
    | with_reducible apply keptO_next
    | with_reducible apply keptO_fault
    | with_reducible apply keptO_ite
    | with_reducible apply kept_ite
    | (with_reducible intro; with_reducible intros)
    | split

theorem execEntropyReseed_kept {s0 : State} {passed : Bool} {s : State} (h : Kept s0 s) :
    KeptO s0 (execEntropyReseed passed s) := by
  unfold execEntropyReseed
  try dsimp only
  repeat' first
    | with_reducible assumption
    | with_reducible apply State.bump_kept
    | with_reducible apply State.raise_kept
    | with_reducible apply keptO_next
    | with_reducible apply keptO_fault
    | with_reducible apply keptO_ite
    | with_reducible apply kept_ite
    | with_reducible rfl
    | simp only [List.length_modify, List.length_map, List.length_mapIdx]
    | with_reducible refine kept_mk (t := _) ?_ ?_ ?_

theorem State.beginTransition_kept {s0 : State} {s : State} {d : Desc} {frm : LcState} {to_ : LcState} {k : Nat} (h : Kept s0 s) :
    Kept s0 (State.beginTransition s d frm to_ k) := by
  unfold State.beginTransition
  try dsimp only
  repeat' first
    | with_reducible assumption
    | with_reducible apply State.accept_kept
    | with_reducible rfl
    | simp only [List.length_modify, List.length_map, List.length_mapIdx]
    | with_reducible refine kept_mk (t := _) ?_ ?_ ?_

theorem State.serveTransition_kept {s0 : State} {s : State} {d : Desc} (h : Kept s0 s) :
    Kept s0 (State.serveTransition s d) := by
  unfold State.serveTransition
  try dsimp only
  repeat' first
    | with_reducible assumption
    | with_reducible apply State.refuse_kept
    | with_reducible apply State.countUnwrapFail_kept
    | with_reducible apply State.beginTransition_kept
    | with_reducible apply kept_ite
    | split

theorem execLcTransition_kept {s0 : State} {id : Nat} {s : State} (h : Kept s0 s) :
    KeptO s0 (execLcTransition id s) := by
  unfold execLcTransition
  try dsimp only
  repeat' first
    | with_reducible assumption
    | with_reducible apply State.serve_kept
    | with_reducible apply State.serveTransition_kept
    | with_reducible apply keptO_next
    | with_reducible apply keptO_fault
    | with_reducible apply keptO_ite
    | (with_reducible intro; with_reducible intros)

theorem State.claimEffects_kept {s0 : State} {s : State} {value : Bytes} (h : Kept s0 s) :
    Kept s0 (State.claimEffects s value) := by
  unfold State.claimEffects
  try dsimp only
  repeat' first
    | with_reducible assumption
    | with_reducible apply State.bump_kept
    | with_reducible apply State.restartSpaces_kept
    | (with_reducible intro; with_reducible intros)
    | split
    | with_reducible rfl
    | simp only [List.length_modify, List.length_map, List.length_mapIdx]
    | with_reducible refine kept_mk (t := _) ?_ ?_ ?_

theorem State.returnEffects_kept {s0 : State} {s : State} (h : Kept s0 s) :
    Kept s0 (State.returnEffects s) := by
  unfold State.returnEffects
  try dsimp only
  repeat' first
    | with_reducible assumption
    | with_reducible apply State.restartSpaces_kept
    | with_reducible apply State.removeTenant_kept
    | with_reducible apply kept_foldl
    | (with_reducible intro; with_reducible intros)
    | with_reducible rfl
    | simp only [List.length_modify, List.length_map, List.length_mapIdx]
    | with_reducible refine kept_mk (t := _) ?_ ?_ ?_

theorem State.lcEffects_kept {s0 : State} {s : State} {frm : LcState} {to_ : LcState} {value : Bytes} (h : Kept s0 s) :
    Kept s0 (State.lcEffects s frm to_ value) := by
  unfold State.lcEffects
  try dsimp only
  repeat' first
    | with_reducible assumption
    | with_reducible apply State.restartSpaces_kept
    | with_reducible apply State.claimEffects_kept
    | with_reducible apply State.returnEffects_kept
    | split
    | with_reducible rfl
    | simp only [List.length_modify, List.length_map, List.length_mapIdx]
    | with_reducible refine kept_mk (t := _) ?_ ?_ ?_

theorem State.endTransition_kept {s0 : State} {s : State} {frm : LcState} {to_ : LcState} {k : Nat} {value : Bytes} (h : Kept s0 s) :
    Kept s0 (State.endTransition s frm to_ k value) := by
  unfold State.endTransition
  try dsimp only
  repeat' first
    | with_reducible assumption
    | with_reducible apply State.lcEffects_kept
    | with_reducible rfl
    | simp only [List.length_modify, List.length_map, List.length_mapIdx]
    | with_reducible refine kept_mk (t := _) ?_ ?_ ?_

theorem execLcTransitionDone_kept {s0 : State} {s : State} (h : Kept s0 s) :
    KeptO s0 (execLcTransitionDone s) := by
  unfold execLcTransitionDone
  try dsimp only
  repeat' first
    | with_reducible assumption
    | with_reducible apply State.finish_kept
    | with_reducible apply State.endTransition_kept
    | with_reducible apply keptO_next
    | with_reducible apply keptO_fault
    | with_reducible apply keptO_ite
    | split
    | with_reducible rfl
    | simp only [List.length_modify, List.length_map, List.length_mapIdx]
    | with_reducible refine kept_mk (t := _) ?_ ?_ ?_

theorem State.cutTransition_kept {s0 : State} {s : State} (h : Kept s0 s) :
    Kept s0 (State.cutTransition s) := by
  unfold State.cutTransition
  try dsimp only
  repeat' first
    | with_reducible assumption
    | with_reducible apply State.lcEffects_kept
    | with_reducible apply kept_ite
    | split
    | with_reducible rfl
    | simp only [List.length_modify, List.length_map, List.length_mapIdx]
    | with_reducible refine kept_mk (t := _) ?_ ?_ ?_

end Sys2Proof.Laws
end

