-- ==== Sys2Proof/Laws/KeptUpdate.lean ====
section
/-! SUPPORT. What every operation of Machine/Update.lean keeps. -/
namespace Sys2Proof.Laws
open Sys2Proof Sys2Proof.Machine

theorem State.queueBlocks_kept {s0 : State} {s : State} {copy : Byte} {blocks : List Nat} (h : Kept s0 s) :
    Kept s0 (State.queueBlocks s copy blocks) := by
  unfold State.queueBlocks
  try dsimp only
  repeat' first
    | with_reducible assumption
    | with_reducible apply State.queueWork_kept
    | with_reducible apply kept_foldl
    | with_reducible apply kept_ite
    | (with_reducible intro; with_reducible intros)

theorem State.serveBegin_kept {s0 : State} {s : State} {d : Desc} (h : Kept s0 s) :
    Kept s0 (State.serveBegin s d) := by
  unfold State.serveBegin
  try dsimp only
  repeat' first
    | with_reducible assumption
    | with_reducible apply State.refuse_kept
    | with_reducible apply State.finish_kept
    | with_reducible apply State.accept_kept
    | with_reducible apply kept_ite
    | split
    | with_reducible rfl
    | simp only [List.length_modify, List.length_map, List.length_mapIdx]
    | with_reducible refine kept_mk (t := _) ?_ ?_ ?_

theorem execUpdBegin_kept {s0 : State} {id : Nat} {s : State} (h : Kept s0 s) :
    KeptO s0 (execUpdBegin id s) := by
  unfold execUpdBegin
  try dsimp only
  repeat' first
    | with_reducible assumption
    | with_reducible apply State.serve_kept
    | with_reducible apply State.serveBegin_kept
    | with_reducible apply keptO_next
    | with_reducible apply keptO_fault
    | with_reducible apply keptO_ite
    | (with_reducible intro; with_reducible intros)

theorem State.serveBlock_kept {s0 : State} {s : State} {d : Desc} (h : Kept s0 s) :
    Kept s0 (State.serveBlock s d) := by
  unfold State.serveBlock
  try dsimp only
  repeat' first
    | with_reducible assumption
    | with_reducible apply State.bump_kept
    | with_reducible apply State.refuse_kept
    | with_reducible apply State.accept_kept
    | with_reducible apply State.queueBlocks_kept
    | with_reducible apply kept_ite
    | split
    | with_reducible rfl
    | simp only [List.length_modify, List.length_map, List.length_mapIdx]
    | with_reducible refine kept_mk (t := _) ?_ ?_ ?_

theorem execUpdBlock_kept {s0 : State} {id : Nat} {s : State} (h : Kept s0 s) :
    KeptO s0 (execUpdBlock id s) := by
  unfold execUpdBlock
  try dsimp only
  repeat' first
    | with_reducible assumption
    | with_reducible apply State.serve_kept
    | with_reducible apply State.serveBlock_kept
    | with_reducible apply keptO_next
    | with_reducible apply keptO_fault
    | with_reducible apply keptO_ite
    | (with_reducible intro; with_reducible intros)

theorem State.endBlock_kept {s0 : State} {s : State} {id : Nat} {i : Nat} {data : Bytes} {good : Bool} (h : Kept s0 s) :
    Kept s0 (State.endBlock s id i data good) := by
  unfold State.endBlock
  try dsimp only
  repeat' first
    | with_reducible assumption
    | with_reducible apply State.bump_kept
    | with_reducible apply State.refuse_kept
    | with_reducible apply State.finish_kept
    | with_reducible apply kept_ite
    | with_reducible rfl
    | simp only [List.length_modify, List.length_map, List.length_mapIdx]
    | with_reducible refine kept_mk (t := _) ?_ ?_ ?_

theorem execUpdBlockComplete_kept {s0 : State} {copyAGood : Bool} {copyBGood : Bool} {s : State} (h : Kept s0 s) :
    KeptO s0 (execUpdBlockComplete copyAGood copyBGood s) := by
  unfold execUpdBlockComplete
  try dsimp only
  repeat' first
    | with_reducible assumption
    | with_reducible apply State.endBlock_kept
    | with_reducible apply keptO_next
    | with_reducible apply keptO_fault
    | with_reducible apply keptO_ite
    | split
    | with_reducible rfl
    | simp only [List.length_modify, List.length_map, List.length_mapIdx]
    | with_reducible refine kept_mk (t := _) ?_ ?_ ?_

theorem State.serveCommit_kept {s0 : State} {s : State} {d : Desc} (h : Kept s0 s) :
    Kept s0 (State.serveCommit s d) := by
  unfold State.serveCommit
  try dsimp only
  repeat' first
    | with_reducible assumption
    | with_reducible apply State.refuse_kept
    | with_reducible apply State.accept_kept
    | with_reducible apply State.queueBlocks_kept
    | with_reducible apply kept_ite
    | split
    | with_reducible rfl
    | simp only [List.length_modify, List.length_map, List.length_mapIdx]
    | with_reducible refine kept_mk (t := _) ?_ ?_ ?_

theorem execUpdCommit_kept {s0 : State} {id : Nat} {s : State} (h : Kept s0 s) :
    KeptO s0 (execUpdCommit id s) := by
  unfold execUpdCommit
  try dsimp only
  repeat' first
    | with_reducible assumption
    | with_reducible apply State.serve_kept
    | with_reducible apply State.serveCommit_kept
    | with_reducible apply keptO_next
    | with_reducible apply keptO_fault
    | with_reducible apply keptO_ite
    | (with_reducible intro; with_reducible intros)

theorem State.endCommit_kept {s0 : State} {s : State} {id : Nat} (h : Kept s0 s) :
    Kept s0 (State.endCommit s id) := by
  unfold State.endCommit
  try dsimp only
  repeat' first
    | with_reducible assumption
    | with_reducible apply State.refuse_kept
    | with_reducible apply State.finish_kept
    | with_reducible apply kept_elim
    | with_reducible apply kept_ite
    | (with_reducible intro; with_reducible intros)
    | split
    | with_reducible rfl
    | simp only [List.length_modify, List.length_map, List.length_mapIdx]
    | with_reducible refine kept_mk (t := _) ?_ ?_ ?_

theorem execUpdCommitComplete_kept {s0 : State} {s : State} (h : Kept s0 s) :
    KeptO s0 (execUpdCommitComplete s) := by
  unfold execUpdCommitComplete
  try dsimp only
  repeat' first
    | with_reducible assumption
    | with_reducible apply State.endCommit_kept
    | with_reducible apply keptO_next
    | with_reducible apply keptO_fault
    | with_reducible apply keptO_ite
    | split
    | with_reducible rfl
    | simp only [List.length_modify, List.length_map, List.length_mapIdx]
    | with_reducible refine kept_mk (t := _) ?_ ?_ ?_

theorem State.serveActivate_kept {s0 : State} {s : State} {d : Desc} (h : Kept s0 s) :
    Kept s0 (State.serveActivate s d) := by
  unfold State.serveActivate
  try dsimp only
  repeat' first
    | with_reducible assumption
    | with_reducible apply State.bump_kept
    | with_reducible apply State.answerWith_kept
    | with_reducible apply State.refuse_kept
    | split
    | with_reducible rfl
    | simp only [List.length_modify, List.length_map, List.length_mapIdx]
    | with_reducible refine kept_mk (t := _) ?_ ?_ ?_

theorem execUpdActivate_kept {s0 : State} {id : Nat} {s : State} (h : Kept s0 s) :
    KeptO s0 (execUpdActivate id s) := by
  unfold execUpdActivate
  try dsimp only
  repeat' first
    | with_reducible assumption
    | with_reducible apply State.serve_kept
    | with_reducible apply State.serveActivate_kept
    | with_reducible apply keptO_next
    | with_reducible apply keptO_fault
    | with_reducible apply keptO_ite
    | (with_reducible intro; with_reducible intros)

theorem State.serveConfirm_kept {s0 : State} {s : State} {d : Desc} (h : Kept s0 s) :
    Kept s0 (State.serveConfirm s d) := by
  unfold State.serveConfirm
  try dsimp only
  repeat' first
    | with_reducible assumption
    | with_reducible apply State.raise_kept
    | with_reducible apply State.refuse_kept
    | with_reducible apply State.finish_kept
    | with_reducible apply State.addRecord_kept
    | with_reducible apply kept_ite
    | with_reducible rfl
    | simp only [List.length_modify, List.length_map, List.length_mapIdx]
    | with_reducible refine kept_mk (t := _) ?_ ?_ ?_

theorem execHealthConfirm_kept {s0 : State} {id : Nat} {s : State} (h : Kept s0 s) :
    KeptO s0 (execHealthConfirm id s) := by
  unfold execHealthConfirm
  try dsimp only
  repeat' first
    | with_reducible assumption
    | with_reducible apply State.serve_kept
    | with_reducible apply State.serveConfirm_kept
    | with_reducible apply keptO_next
    | with_reducible apply keptO_fault
    | with_reducible apply keptO_ite
    | (with_reducible intro; with_reducible intros)

theorem State.abortUpdate_kept {s0 : State} {s : State} {value : Nat} (h : Kept s0 s) :
    Kept s0 (State.abortUpdate s value) := by
  unfold State.abortUpdate
  try dsimp only
  repeat' first
    | with_reducible assumption
    | with_reducible apply kept_ite
    | with_reducible rfl
    | simp only [List.length_modify, List.length_map, List.length_mapIdx]
    | with_reducible refine kept_mk (t := _) ?_ ?_ ?_

theorem execUpdAbort_kept {s0 : State} {value : Word} {s : State} (h : Kept s0 s) :
    KeptO s0 (execUpdAbort value s) := by
  unfold execUpdAbort
  try dsimp only
  repeat' first
    | with_reducible assumption
    | with_reducible apply State.abortUpdate_kept
    | with_reducible apply keptO_next
    | with_reducible apply keptO_fault
    | with_reducible apply keptO_ite

theorem execUpdAbandoned_kept {s0 : State} {s : State} (h : Kept s0 s) :
    KeptO s0 (execUpdAbandoned s) := by
  unfold execUpdAbandoned
  try dsimp only
  repeat' first
    | with_reducible assumption
    | with_reducible apply State.raise_kept
    | with_reducible apply keptO_next
    | with_reducible apply keptO_fault
    | with_reducible apply keptO_ite
    | with_reducible apply kept_ite
    | with_reducible rfl
    | simp only [List.length_modify, List.length_map, List.length_mapIdx]
    | with_reducible refine kept_mk (t := _) ?_ ?_ ?_

theorem execSelfTestsPassed_kept {s0 : State} {s : State} (h : Kept s0 s) :
    KeptO s0 (execSelfTestsPassed s) := by
  unfold execSelfTestsPassed
  try dsimp only
  repeat' first
    | with_reducible assumption
    | with_reducible apply keptO_next
    | with_reducible apply keptO_fault
    | with_reducible apply keptO_ite
    | with_reducible apply kept_ite
    | with_reducible rfl
    | simp only [List.length_modify, List.length_map, List.length_mapIdx]
    | with_reducible refine kept_mk (t := _) ?_ ?_ ?_

theorem State.halt_kept {s0 : State} {s : State} {why : HalterWhy} (h : Kept s0 s) :
    Kept s0 (State.halt s why) := by
  unfold State.halt
  try dsimp only
  repeat' first
    | with_reducible assumption
    | with_reducible apply State.bump_kept
    | with_reducible apply State.causeReset_kept
    | with_reducible rfl
    | simp only [List.length_modify, List.length_map, List.length_mapIdx]
    | with_reducible refine kept_mk (t := _) ?_ ?_ ?_

theorem execHalterReset_kept {s0 : State} {why : HalterWhy} {s : State} (h : Kept s0 s) :
    KeptO s0 (execHalterReset why s) := by
  unfold execHalterReset
  try dsimp only
  repeat' first
    | with_reducible assumption
    | with_reducible apply State.halt_kept
    | with_reducible apply keptO_next
    | with_reducible apply keptO_fault
    | with_reducible apply keptO_ite
    | with_reducible apply kept_ite

end Sys2Proof.Laws
end

