-- ==== Sys2Proof/Laws/KeptPower.lean ====
section
/-! SUPPORT. What every operation of Machine/Power.lean keeps. -/
namespace Sys2Proof.Laws
open Sys2Proof Sys2Proof.Machine

theorem execLeverOpen_kept {s0 : State} {s : State} (h : Kept s0 s) :
    KeptO s0 (execLeverOpen s) := by
  unfold execLeverOpen
  try dsimp only
  repeat' first
    | with_reducible assumption
    | with_reducible apply State.raise_kept
    | with_reducible apply keptO_next
    | with_reducible apply keptO_fault
    | with_reducible apply keptO_ite
    | with_reducible apply kept_ite
    | with_reducible rfl
    | simp only [List.length_modify, List.length_map, List.length_mapIdx]
    | with_reducible refine kept_mk (t := _) ?_ ?_ ?_

theorem execLeverClose_kept {s0 : State} {s : State} (h : Kept s0 s) :
    KeptO s0 (execLeverClose s) := by
  unfold execLeverClose
  try dsimp only
  repeat' first
    | with_reducible assumption
    | with_reducible apply keptO_next
    | with_reducible apply keptO_fault
    | with_reducible apply keptO_ite
    | with_reducible rfl
    | simp only [List.length_modify, List.length_map, List.length_mapIdx]
    | with_reducible refine kept_mk (t := _) ?_ ?_ ?_

theorem execActNRelease_kept {s0 : State} {s : State} (h : Kept s0 s) :
    KeptO s0 (execActNRelease s) := by
  unfold execActNRelease
  try dsimp only
  repeat' first
    | with_reducible assumption
    | with_reducible apply keptO_next
    | with_reducible apply keptO_fault
    | with_reducible apply keptO_ite
    | with_reducible apply kept_ite
    | with_reducible rfl
    | simp only [List.length_modify, List.length_map, List.length_mapIdx]
    | with_reducible refine kept_mk (t := _) ?_ ?_ ?_

theorem execVfStepDown_kept {s0 : State} {margin : Int} {s : State} (h : Kept s0 s) :
    KeptO s0 (execVfStepDown margin s) := by
  unfold execVfStepDown
  try dsimp only
  repeat' first
    | with_reducible assumption
    | with_reducible apply State.bump_kept
    | with_reducible apply keptO_next
    | with_reducible apply keptO_fault
    | with_reducible apply keptO_ite
    | with_reducible apply kept_ite
    | with_reducible rfl
    | simp only [List.length_modify, List.length_map, List.length_mapIdx]
    | with_reducible refine kept_mk (t := _) ?_ ?_ ?_

theorem execVfStepUp_kept {s0 : State} {margin : Int} {s : State} (h : Kept s0 s) :
    KeptO s0 (execVfStepUp margin s) := by
  unfold execVfStepUp
  try dsimp only
  repeat' first
    | with_reducible assumption
    | with_reducible apply keptO_next
    | with_reducible apply keptO_fault
    | with_reducible apply keptO_ite
    | with_reducible apply kept_ite
    | with_reducible rfl
    | simp only [List.length_modify, List.length_map, List.length_mapIdx]
    | with_reducible refine kept_mk (t := _) ?_ ?_ ?_

theorem execVfSafe_kept {s0 : State} {margin : Int} {plausible : Bool} {s : State} (h : Kept s0 s) :
    KeptO s0 (execVfSafe margin plausible s) := by
  unfold execVfSafe
  try dsimp only
  repeat' first
    | with_reducible assumption
    | with_reducible apply State.bump_kept
    | with_reducible apply State.raise_kept
    | with_reducible apply keptO_next
    | with_reducible apply keptO_fault
    | with_reducible apply keptO_ite
    | with_reducible apply kept_ite
    | with_reducible rfl
    | simp only [List.length_modify, List.length_map, List.length_mapIdx]
    | with_reducible refine kept_mk (t := _) ?_ ?_ ?_

theorem execVfSafeEnd_kept {s0 : State} {s : State} (h : Kept s0 s) :
    KeptO s0 (execVfSafeEnd s) := by
  unfold execVfSafeEnd
  try dsimp only
  repeat' first
    | with_reducible assumption
    | with_reducible apply keptO_next
    | with_reducible apply keptO_fault
    | with_reducible apply keptO_ite
    | with_reducible apply kept_ite
    | split
    | with_reducible rfl
    | simp only [List.length_modify, List.length_map, List.length_mapIdx]
    | with_reducible refine kept_mk (t := _) ?_ ?_ ?_

theorem execPowerLimit_kept {s0 : State} {centiwatts : Nat} {s : State} (h : Kept s0 s) :
    KeptO s0 (execPowerLimit centiwatts s) := by
  unfold execPowerLimit
  try dsimp only
  repeat' first
    | with_reducible assumption
    | with_reducible apply keptO_next
    | with_reducible apply keptO_fault
    | with_reducible apply keptO_ite
    | with_reducible apply kept_ite
    | with_reducible rfl
    | simp only [List.length_modify, List.length_map, List.length_mapIdx]
    | with_reducible refine kept_mk (t := _) ?_ ?_ ?_

theorem execPowerLimitRelease_kept {s0 : State} {centiwatts : Nat} {s : State} (h : Kept s0 s) :
    KeptO s0 (execPowerLimitRelease centiwatts s) := by
  unfold execPowerLimitRelease
  try dsimp only
  repeat' first
    | with_reducible assumption
    | with_reducible apply keptO_next
    | with_reducible apply keptO_fault
    | with_reducible apply keptO_ite
    | with_reducible apply kept_ite
    | with_reducible rfl
    | simp only [List.length_modify, List.length_map, List.length_mapIdx]
    | with_reducible refine kept_mk (t := _) ?_ ?_ ?_

theorem execSerdesMargin_kept {s0 : State} {lane : Fin 4} {s : State} (h : Kept s0 s) :
    KeptO s0 (execSerdesMargin lane s) := by
  unfold execSerdesMargin
  try dsimp only
  repeat' first
    | with_reducible assumption
    | with_reducible apply State.bump_kept
    | with_reducible apply State.raise_kept
    | with_reducible apply keptO_next
    | with_reducible apply keptO_fault
    | with_reducible apply keptO_ite
    | with_reducible apply kept_ite
    | (with_reducible intro; with_reducible intros)
    | with_reducible rfl
    | simp only [List.length_modify, List.length_map, List.length_mapIdx]
    | with_reducible refine kept_mk (t := _) ?_ ?_ ?_

theorem execThermalLoopUpdate_kept {s0 : State} {temps : Temps} {s : State} (h : Kept s0 s) :
    KeptO s0 (execThermalLoopUpdate temps s) := by
  unfold execThermalLoopUpdate
  try dsimp only
  repeat' first
    | with_reducible assumption
    | with_reducible apply State.raise_kept
    | with_reducible apply keptO_next
    | with_reducible apply keptO_fault
    | with_reducible apply keptO_ite
    | with_reducible apply kept_ite
    | with_reducible rfl
    | simp only [List.length_modify, List.length_map, List.length_mapIdx]
    | with_reducible refine kept_mk (t := _) ?_ ?_ ?_

theorem execThermalHigh_kept {s0 : State} {td : Int} {s : State} (h : Kept s0 s) :
    KeptO s0 (execThermalHigh td s) := by
  unfold execThermalHigh
  try dsimp only
  repeat' first
    | with_reducible assumption
    | with_reducible apply State.raise_kept
    | with_reducible apply keptO_next
    | with_reducible apply keptO_fault
    | with_reducible apply keptO_ite
    | with_reducible apply kept_ite
    | with_reducible rfl
    | simp only [List.length_modify, List.length_map, List.length_mapIdx]
    | with_reducible refine kept_mk (t := _) ?_ ?_ ?_

theorem execThermalOk_kept {s0 : State} {td : Int} {s : State} (h : Kept s0 s) :
    KeptO s0 (execThermalOk td s) := by
  unfold execThermalOk
  try dsimp only
  repeat' first
    | with_reducible assumption
    | with_reducible apply State.raise_kept
    | with_reducible apply keptO_next
    | with_reducible apply keptO_fault
    | with_reducible apply keptO_ite
    | with_reducible apply kept_ite
    | with_reducible rfl
    | simp only [List.length_modify, List.length_map, List.length_mapIdx]
    | with_reducible refine kept_mk (t := _) ?_ ?_ ?_

theorem execTickInQualified_kept {s0 : State} {missed : Bool} {ppm : Nat} {phase : Nat} {s : State} (h : Kept s0 s) :
    KeptO s0 (execTickInQualified missed ppm phase s) := by
  unfold execTickInQualified
  try dsimp only
  repeat' first
    | with_reducible assumption
    | with_reducible apply keptO_next
    | with_reducible apply keptO_fault
    | with_reducible apply keptO_ite
    | with_reducible apply kept_ite
    | with_reducible rfl
    | simp only [List.length_modify, List.length_map, List.length_mapIdx]
    | with_reducible refine kept_mk (t := _) ?_ ?_ ?_

theorem execTickLost_kept {s0 : State} {byFrequency : Bool} {s : State} (h : Kept s0 s) :
    KeptO s0 (execTickLost byFrequency s) := by
  unfold execTickLost
  try dsimp only
  repeat' first
    | with_reducible assumption
    | with_reducible apply State.bump_kept
    | with_reducible apply State.raise_kept
    | with_reducible apply keptO_next
    | with_reducible apply keptO_fault
    | with_reducible apply keptO_ite
    | with_reducible apply kept_ite
    | with_reducible rfl
    | simp only [List.length_modify, List.length_map, List.length_mapIdx]
    | with_reducible refine kept_mk (t := _) ?_ ?_ ?_

end Sys2Proof.Laws
end

