-- ==== Sys2Proof/Laws/KeptStartUp.lean ====
section
/-! SUPPORT. What every operation of Machine/StartUp.lean keeps. -/
namespace Sys2Proof.Laws
open Sys2Proof Sys2Proof.Machine

theorem State.replay_kept {s0 : State} {s : State} (h : Kept s0 s) :
    Kept s0 (State.replay s) := by
  unfold State.replay
  try dsimp only
  repeat' first
    | with_reducible assumption
    | with_reducible apply State.commitEntry_kept
    | with_reducible apply State.watchJournal_kept
    | split
    | with_reducible rfl
    | simp only [List.length_modify, List.length_map, List.length_mapIdx]
    | with_reducible refine kept_mk (t := _) ?_ ?_ ?_

theorem State.cutLoader_kept {s0 : State} {s : State} (h : Kept s0 s) :
    Kept s0 (State.cutLoader s) := by
  unfold State.cutLoader
  try dsimp only
  repeat' first
    | with_reducible assumption
    | with_reducible apply kept_ite
    | with_reducible rfl
    | simp only [List.length_modify, List.length_map, List.length_mapIdx]
    | with_reducible refine kept_mk (t := _) ?_ ?_ ?_

theorem State.endVolatile_kept {s0 : State} {s : State} {loops cold standby : Bool} (h0 : Kept s0 s) :
    Kept s0 (s.endVolatile loops cold standby) := by
  have h := State.cutLoader_kept (State.cutTransition_kept (State.cutLoad_kept h0))
  unfold State.endVolatile
  generalize s.cutLoad.cutTransition.cutLoader = t at h
  refine ⟨h.1, h.2.1, ?_, fun w => filter_words_wf _ _ (h.2.2.2.1 w), fun w => ?_⟩
  · exact (List.length_map _).trans h.2.2.1
  · cases standby with
    | true => exact filter_counters_wf _ _ (h.2.2.2.2 w)
    | false => rfl

theorem State.railsOff_kept {s0 : State} {s : State} {rails : Rails} {standby : Bool} (h : Kept s0 s) :
    Kept s0 (State.railsOff s rails standby) := by
  unfold State.railsOff
  try dsimp only
  repeat' first
    | with_reducible assumption
    | with_reducible apply State.endVolatile_kept
    | with_reducible rfl
    | simp only [List.length_modify, List.length_map, List.length_mapIdx]
    | with_reducible refine kept_mk (t := _) ?_ ?_ ?_

theorem State.cleanDown_kept {s0 : State} {s : State} {rails : Rails} {standby : Bool} (h : Kept s0 s) :
    Kept s0 (State.cleanDown s rails standby) := by
  unfold State.cleanDown
  try dsimp only
  repeat' first
    | with_reducible assumption
    | with_reducible apply State.railsOff_kept
    | with_reducible rfl
    | simp only [List.length_modify, List.length_map, List.length_mapIdx]
    | with_reducible refine kept_mk (t := _) ?_ ?_ ?_
    | (show Media.words _ = _; rfl)

theorem State.standbyStart_kept {s0 : State} {s : State} (h : Kept s0 s) : Kept s0 (State.standbyStart s) := by
  unfold State.standbyStart
  dsimp only
  split
  · exact h
  · exact ⟨h.1, h.2.1, h.2.2.1, h.2.2.2.1, fun _ => rfl⟩

theorem State.coldStart_kept {s0 : State} {s : State} {type : Nat} {cause : Nat} (h : Kept s0 s) :
    Kept s0 (State.coldStart s type cause) := by
  unfold State.coldStart
  try dsimp only
  repeat' first
    | with_reducible assumption
    | with_reducible apply State.standbyStart_kept
    | with_reducible apply kept_ite
    | (with_reducible intro; with_reducible intros)
    | split
    | with_reducible rfl
    | simp only [List.length_modify, List.length_map, List.length_mapIdx]
    | with_reducible refine kept_mk (t := _) ?_ ?_ ?_
    | (show Media.words _ = _; rfl)

theorem execPowerFail_kept {s0 : State} {programs : Nat} {s : State} (h : Kept s0 s) :
    KeptO s0 (execPowerFail programs s) := by
  unfold execPowerFail
  try dsimp only
  repeat' first
    | with_reducible assumption
    | with_reducible apply State.railsOff_kept
    | with_reducible apply keptO_next
    | with_reducible apply keptO_fault
    | with_reducible apply keptO_ite
    | with_reducible apply kept_ite
    | split
    | with_reducible rfl
    | simp only [List.length_modify, List.length_map, List.length_mapIdx]
    | with_reducible refine kept_mk (t := _) ?_ ?_ ?_
    | (show Media.words _ = _; rfl)

theorem execPowerGood_kept {s0 : State} {s : State} (h : Kept s0 s) :
    KeptO s0 (execPowerGood s) := by
  unfold execPowerGood
  try dsimp only
  repeat' first
    | with_reducible assumption
    | with_reducible apply State.coldStart_kept
    | with_reducible apply keptO_next
    | with_reducible apply keptO_fault
    | with_reducible apply keptO_ite
    | with_reducible apply kept_ite
    | with_reducible rfl
    | simp only [List.length_modify, List.length_map, List.length_mapIdx]
    | with_reducible refine kept_mk (t := _) ?_ ?_ ?_

theorem execPwrDisAssert_kept {s0 : State} {s : State} (h : Kept s0 s) :
    KeptO s0 (execPwrDisAssert s) := by
  unfold execPwrDisAssert
  try dsimp only
  repeat' first
    | with_reducible assumption
    | with_reducible apply State.cleanDown_kept
    | with_reducible apply keptO_next
    | with_reducible apply keptO_fault
    | with_reducible apply keptO_ite
    | with_reducible apply kept_ite
    | with_reducible rfl
    | simp only [List.length_modify, List.length_map, List.length_mapIdx]
    | with_reducible refine kept_mk (t := _) ?_ ?_ ?_

theorem execPwrDisRelease_kept {s0 : State} {s : State} (h : Kept s0 s) :
    KeptO s0 (execPwrDisRelease s) := by
  unfold execPwrDisRelease
  try dsimp only
  repeat' first
    | with_reducible assumption
    | with_reducible apply State.coldStart_kept
    | with_reducible apply keptO_next
    | with_reducible apply keptO_fault
    | with_reducible apply keptO_ite
    | with_reducible apply kept_ite
    | with_reducible rfl
    | simp only [List.length_modify, List.length_map, List.length_mapIdx]
    | with_reducible refine kept_mk (t := _) ?_ ?_ ?_

theorem execThermalTrip_kept {s0 : State} {td : Int} {tj : Int} {s : State} (h : Kept s0 s) :
    KeptO s0 (execThermalTrip td tj s) := by
  unfold execThermalTrip
  try dsimp only
  repeat' first
    | with_reducible assumption
    | with_reducible apply State.cleanDown_kept
    | with_reducible apply keptO_next
    | with_reducible apply keptO_fault
    | with_reducible apply keptO_ite
    | with_reducible apply kept_ite
    | split
    | with_reducible rfl
    | simp only [List.length_modify, List.length_map, List.length_mapIdx]
    | with_reducible refine kept_mk (t := _) ?_ ?_ ?_

theorem execThermalHoldEnd_kept {s0 : State} {s : State} (h : Kept s0 s) :
    KeptO s0 (execThermalHoldEnd s) := by
  unfold execThermalHoldEnd
  try dsimp only
  repeat' first
    | with_reducible assumption
    | with_reducible apply State.coldStart_kept
    | with_reducible apply keptO_next
    | with_reducible apply keptO_fault
    | with_reducible apply keptO_ite
    | with_reducible apply kept_ite
    | with_reducible rfl
    | simp only [List.length_modify, List.length_map, List.length_mapIdx]
    | with_reducible refine kept_mk (t := _) ?_ ?_ ?_

theorem State.serveFullReset_kept {s0 : State} {s : State} {d : Desc} (h : Kept s0 s) :
    Kept s0 (State.serveFullReset s d) := by
  unfold State.serveFullReset
  try dsimp only
  repeat' first
    | with_reducible assumption
    | with_reducible apply State.answerWith_kept

theorem execFullReset_kept {s0 : State} {id : Nat} {s : State} (h : Kept s0 s) :
    KeptO s0 (execFullReset id s) := by
  unfold execFullReset
  try dsimp only
  repeat' first
    | with_reducible assumption
    | with_reducible apply State.serve_kept
    | with_reducible apply State.serveFullReset_kept
    | with_reducible apply keptO_next
    | with_reducible apply keptO_fault
    | with_reducible apply keptO_ite
    | (with_reducible intro; with_reducible intros)

theorem execGlbResetController_kept {s0 : State} {path : Path} {s : State} (h : Kept s0 s) :
    KeptO s0 (execGlbResetController path s) := by
  unfold execGlbResetController
  try dsimp only
  repeat' first
    | with_reducible assumption
    | with_reducible apply State.causeReset_kept
    | with_reducible apply keptO_next
    | with_reducible apply keptO_fault
    | with_reducible apply keptO_ite

theorem execGlbResetDrive_kept {s0 : State} {path : Path} {s : State} (h : Kept s0 s) :
    KeptO s0 (execGlbResetDrive path s) := by
  unfold execGlbResetDrive
  try dsimp only
  repeat' first
    | with_reducible assumption
    | with_reducible apply State.causeReset_kept
    | with_reducible apply keptO_next
    | with_reducible apply keptO_fault
    | with_reducible apply keptO_ite

theorem execGlbResetPower_kept {s0 : State} {path : Path} {s : State} (h : Kept s0 s) :
    KeptO s0 (execGlbResetPower path s) := by
  unfold execGlbResetPower
  try dsimp only
  repeat' first
    | with_reducible assumption
    | with_reducible apply State.causeReset_kept
    | with_reducible apply keptO_next
    | with_reducible apply keptO_fault
    | with_reducible apply keptO_ite

theorem execResetNAssert_kept {s0 : State} {s : State} (h : Kept s0 s) :
    KeptO s0 (execResetNAssert s) := by
  unfold execResetNAssert
  try dsimp only
  repeat' first
    | with_reducible assumption
    | with_reducible apply State.causeReset_kept
    | with_reducible apply keptO_next
    | with_reducible apply keptO_fault
    | with_reducible apply keptO_ite
    | with_reducible rfl
    | simp only [List.length_modify, List.length_map, List.length_mapIdx]
    | with_reducible refine kept_mk (t := _) ?_ ?_ ?_

theorem execResetNRelease_kept {s0 : State} {s : State} (h : Kept s0 s) :
    KeptO s0 (execResetNRelease s) := by
  unfold execResetNRelease
  try dsimp only
  repeat' first
    | with_reducible assumption
    | with_reducible apply keptO_next
    | with_reducible apply keptO_fault
    | with_reducible apply keptO_ite
    | with_reducible rfl
    | simp only [List.length_modify, List.length_map, List.length_mapIdx]
    | with_reducible refine kept_mk (t := _) ?_ ?_ ?_

theorem State.performReset_kept {s0 : State} {s : State} {type : Nat} {cause : Nat} (h : Kept s0 s) :
    Kept s0 (State.performReset s type cause) := by
  unfold State.performReset
  try dsimp only
  repeat' first
    | with_reducible assumption
    | with_reducible apply State.bump_kept
    | with_reducible apply State.endVolatile_kept
    | with_reducible apply State.cleanDown_kept
    | with_reducible apply kept_ite
    | with_reducible rfl
    | simp only [List.length_modify, List.length_map, List.length_mapIdx]
    | with_reducible refine kept_mk (t := _) ?_ ?_ ?_

theorem execResetBegin_kept {s0 : State} {s : State} (h : Kept s0 s) :
    KeptO s0 (execResetBegin s) := by
  unfold execResetBegin
  try dsimp only
  repeat' first
    | with_reducible assumption
    | with_reducible apply State.performReset_kept
    | with_reducible apply keptO_next
    | with_reducible apply keptO_fault
    | with_reducible apply keptO_ite
    | split

theorem State.saveSettings_kept {s0 : State} {s : State} {value : Nat} (h : Kept s0 s) :
    Kept s0 (State.saveSettings s value) := by
  unfold State.saveSettings
  try dsimp only
  repeat' first
    | with_reducible assumption
    | with_reducible apply kept_ite
    | with_reducible rfl
    | simp only [List.length_modify, List.length_map, List.length_mapIdx]
    | with_reducible refine kept_mk (t := _) ?_ ?_ ?_

theorem execGlbCfgSave_kept {s0 : State} {value : Word} {s : State} (h : Kept s0 s) :
    KeptO s0 (execGlbCfgSave value s) := by
  unfold execGlbCfgSave
  try dsimp only
  repeat' first
    | with_reducible assumption
    | with_reducible apply State.saveSettings_kept
    | with_reducible apply keptO_next
    | with_reducible apply keptO_fault
    | with_reducible apply keptO_ite

theorem State.restoreSettings_kept {s0 : State} {s : State} (h : Kept s0 s) :
    Kept s0 (State.restoreSettings s) := by
  unfold State.restoreSettings
  try dsimp only
  repeat' first
    | with_reducible assumption
    | with_reducible apply kept_ite
    | (with_reducible intro; with_reducible intros)
    | split
    | with_reducible rfl
    | simp only [List.length_modify, List.length_map, List.length_mapIdx]
    | with_reducible refine kept_mk (t := _) ?_ ?_ ?_

theorem State.mapSpaces_kept {s0 : State} {s : State} {f : Space → Space} (h : Kept s0 s) :
    Kept s0 (State.mapSpaces s f) := by
  unfold State.mapSpaces
  try dsimp only
  repeat' first
    | with_reducible assumption
    | (with_reducible intro; with_reducible intros)
    | with_reducible rfl
    | simp only [List.length_modify, List.length_map, List.length_mapIdx]
    | with_reducible refine kept_mk (t := _) ?_ ?_ ?_

theorem State.rebuildItem_kept {s0 : State} {s : State} {item : Nat} (h : Kept s0 s) :
    Kept s0 (State.rebuildItem s item) := by
  unfold State.rebuildItem
  try dsimp only
  repeat' first
    | with_reducible assumption
    | with_reducible apply State.loseKey_kept
    | with_reducible apply State.mapSpaces_kept
    | with_reducible apply kept_foldl
    | with_reducible apply kept_ite
    | (with_reducible intro; with_reducible intros)
    | split
    | with_reducible rfl
    | simp only [List.length_modify, List.length_map, List.length_mapIdx]
    | with_reducible refine kept_mk (t := _) ?_ ?_ ?_
    | (show Media.words _ = _; rfl)

theorem State.readControl_kept {s0 : State} {s : State} {items : List Nat} (h : Kept s0 s) :
    Kept s0 (State.readControl s items) := by
  unfold State.readControl
  try dsimp only
  repeat' first
    | with_reducible assumption
    | with_reducible apply State.raise_kept
    | with_reducible apply State.rebuildItem_kept
    | with_reducible apply kept_foldl
    | (with_reducible intro; with_reducible intros)

theorem State.resumeTransition_kept {s0 : State} {s : State} {intentGood : Bool} (h : Kept s0 s) :
    Kept s0 (State.resumeTransition s intentGood) := by
  unfold State.resumeTransition
  try dsimp only
  repeat' first
    | with_reducible assumption
    | with_reducible apply State.bump_kept
    | with_reducible apply State.raise_kept
    | with_reducible apply State.endTransition_kept
    | with_reducible apply kept_elim
    | with_reducible apply kept_ite
    | (with_reducible intro; with_reducible intros)
    | split
    | with_reducible rfl
    | simp only [List.length_modify, List.length_map, List.length_mapIdx]
    | with_reducible refine kept_mk (t := _) ?_ ?_ ?_

theorem State.resumePhase_kept {s0 : State} {s : State} {src : Image} (h : Kept s0 s) :
    Kept s0 (State.resumePhase s src) := by
  unfold State.resumePhase
  try dsimp only
  repeat' first
    | with_reducible assumption
    | with_reducible apply State.bump_kept
    | with_reducible apply kept_ite
    | with_reducible rfl
    | simp only [List.length_modify, List.length_map, List.length_mapIdx]
    | with_reducible refine kept_mk (t := _) ?_ ?_ ?_

theorem State.restoreImage_kept {s0 : State} {s : State} {result : Nat} {fallbackGood : Bool} (h : Kept s0 s) :
    Kept s0 (State.restoreImage s result fallbackGood) := by
  unfold State.restoreImage
  try dsimp only
  repeat' first
    | with_reducible assumption
    | with_reducible apply State.bump_kept
    | with_reducible apply State.raise_kept
    | with_reducible apply State.resumePhase_kept
    | with_reducible apply kept_ite
    | with_reducible rfl
    | simp only [List.length_modify, List.length_map, List.length_mapIdx]
    | with_reducible refine kept_mk (t := _) ?_ ?_ ?_

theorem State.placeImage_kept {s0 : State} {s : State} {f : Findings} (h : Kept s0 s) :
    Kept s0 (State.placeImage s f) := by
  unfold State.placeImage
  try dsimp only
  repeat' first
    | with_reducible assumption
    | with_reducible apply State.resumePhase_kept
    | with_reducible apply State.restoreImage_kept
    | with_reducible apply kept_ite
    | with_reducible rfl
    | simp only [List.length_modify, List.length_map, List.length_mapIdx]
    | with_reducible refine kept_mk (t := _) ?_ ?_ ?_

theorem State.loadImage_kept {s0 : State} {s : State} {f : Findings} (h : Kept s0 s) :
    Kept s0 (State.loadImage s f) := by
  unfold State.loadImage
  try dsimp only
  repeat' first
    | with_reducible assumption
    | with_reducible apply State.restoreImage_kept
    | with_reducible apply State.placeImage_kept
    | with_reducible apply kept_ite
    | with_reducible rfl
    | simp only [List.length_modify, List.length_map, List.length_mapIdx]
    | with_reducible refine kept_mk (t := _) ?_ ?_ ?_

theorem State.restartTenants_kept {s0 : State} {s : State} (h : Kept s0 s) :
    Kept s0 (State.restartTenants s) := by
  unfold State.restartTenants
  try dsimp only
  repeat' first
    | with_reducible assumption
    | with_reducible apply State.removeTenant_kept
    | with_reducible apply kept_foldl
    | (with_reducible intro; with_reducible intros)
    | with_reducible rfl
    | simp only [List.length_modify, List.length_map, List.length_mapIdx]
    | with_reducible refine kept_mk (t := _) ?_ ?_ ?_

theorem State.startEvents_kept {s0 : State} {s : State} {entropyGood : Bool} (h : Kept s0 s) :
    Kept s0 (State.startEvents s entropyGood) := by
  unfold State.startEvents
  try dsimp only
  repeat' first
    | with_reducible assumption
    | with_reducible apply State.raise_kept
    | with_reducible apply kept_ite
    | split
    | with_reducible rfl
    | simp only [List.length_modify, List.length_map, List.length_mapIdx]
    | with_reducible refine kept_mk (t := _) ?_ ?_ ?_

theorem State.beginServing_kept {s0 : State} {s : State} {f : Findings} {before : Bytes} (h : Kept s0 s) :
    Kept s0 (State.beginServing s f before) := by
  unfold State.beginServing
  try dsimp only
  repeat' first
    | with_reducible assumption
    | with_reducible apply State.replay_kept
    | with_reducible apply State.restoreSettings_kept
    | with_reducible apply State.restartTenants_kept
    | with_reducible apply State.startEvents_kept
    | with_reducible rfl
    | simp only [List.length_modify, List.length_map, List.length_mapIdx]
    | with_reducible refine kept_mk (t := _) ?_ ?_ ?_

theorem State.startUp_kept {s0 : State} {s : State} {f : Findings} (h : Kept s0 s) :
    Kept s0 (State.startUp s f) := by
  unfold State.startUp
  try dsimp only
  repeat' first
    | with_reducible assumption
    | with_reducible apply State.coldStart_kept
    | with_reducible apply State.mapSpaces_kept
    | with_reducible apply State.readControl_kept
    | with_reducible apply State.resumeTransition_kept
    | with_reducible apply State.loadImage_kept
    | with_reducible apply State.beginServing_kept
    | with_reducible apply kept_ite

theorem execStartUp_kept {s0 : State} {found : Findings} {s : State} (h : Kept s0 s) :
    KeptO s0 (execStartUp found s) := by
  unfold execStartUp
  try dsimp only
  repeat' first
    | with_reducible assumption
    | with_reducible apply State.startUp_kept
    | with_reducible apply keptO_next
    | with_reducible apply keptO_fault
    | with_reducible apply keptO_ite
    | with_reducible apply kept_ite

end Sys2Proof.Laws
end

