-- ==== Sys2Proof/Laws/KeptMedia.lean ====
section
/-! SUPPORT. What every operation of Machine/Media.lean keeps. -/
namespace Sys2Proof.Laws
open Sys2Proof Sys2Proof.Machine

theorem State.dropTree_kept {s0 : State} {s : State} (h : Kept s0 s) :
    Kept s0 (State.dropTree s) := by
  unfold State.dropTree
  try dsimp only
  repeat' first
    | with_reducible assumption
    | with_reducible apply State.decideFront_kept
    | split
    | with_reducible rfl
    | simp only [List.length_modify, List.length_map, List.length_mapIdx]
    | with_reducible refine kept_mk (t := _) ?_ ?_ ?_

theorem State.loseStaging_kept {s0 : State} {s : State} {id : Nat} (h : Kept s0 s) :
    Kept s0 (State.loseStaging s id) := by
  unfold State.loseStaging
  try dsimp only
  repeat' first
    | with_reducible assumption
    | with_reducible apply State.refuse_kept
    | with_reducible apply State.discardTransfer_kept
    | split

theorem State.loseRecord_kept {s0 : State} {s : State} {number : Nat} (h : Kept s0 s) :
    Kept s0 (State.loseRecord s number) := by
  unfold State.loseRecord
  try dsimp only
  repeat' first
    | with_reducible assumption
    | with_reducible apply State.raise_kept
    | with_reducible apply State.fence_kept
    | with_reducible apply State.loseValue_kept
    | with_reducible apply kept_foldl
    | with_reducible apply kept_elim
    | with_reducible apply kept_ite
    | (with_reducible intro; with_reducible intros)
    | split

theorem State.loseFrame_kept {s0 : State} {s : State} (h : Kept s0 s) :
    Kept s0 (State.loseFrame s) := by
  unfold State.loseFrame
  try dsimp only
  repeat' first
    | with_reducible assumption
    | with_reducible rfl
    | simp only [List.length_modify, List.length_map, List.length_mapIdx]
    | with_reducible refine kept_mk (t := _) ?_ ?_ ?_

theorem State.loseLog_kept {s0 : State} {s : State} (h : Kept s0 s) :
    Kept s0 (State.loseLog s) := by
  unfold State.loseLog
  try dsimp only
  repeat' first
    | with_reducible assumption
    | (with_reducible intro; with_reducible intros)
    | with_reducible rfl
    | simp only [List.length_modify, List.length_map, List.length_mapIdx]
    | with_reducible refine kept_mk (t := _) ?_ ?_ ?_

theorem State.uncorrectable_kept {s0 : State} {s : State} {x : Struct} (h : Kept s0 s) :
    Kept s0 (State.uncorrectable s x) := by
  unfold State.uncorrectable
  try dsimp only
  repeat' first
    | with_reducible assumption
    | with_reducible apply State.modTenant_kept
    | with_reducible apply State.raise_kept
    | with_reducible apply State.causeReset_kept
    | with_reducible apply State.squash_kept
    | with_reducible apply State.rebuildItem_kept
    | with_reducible apply State.dropTree_kept
    | with_reducible apply State.loseStaging_kept
    | with_reducible apply State.loseRecord_kept
    | with_reducible apply State.loseFrame_kept
    | with_reducible apply State.loseLog_kept
    | with_reducible apply kept_ite
    | (with_reducible intro; with_reducible intros)
    | split
    | with_reducible rfl
    | simp only [List.length_modify, List.length_map, List.length_mapIdx]
    | with_reducible refine kept_mk (t := _) ?_ ?_ ?_

theorem State.putWord_kept {s0 : State} {s : State} {k : Nat} {c : Cell} (h : Kept s0 s) : Kept s0 (s.putWord k c) :=
  ⟨h.1, h.2.1, h.2.2.1, fun w => writeWord_wf _ _ _ (h.2.2.2.1 w), h.2.2.2.2⟩

theorem State.walkWord_kept {s0 : State} {s : State} {m : Mem} {addr : Nat} {found : Found} {x : Struct} (h : Kept s0 s) :
    Kept s0 (State.walkWord s m addr found x) := by
  unfold State.walkWord
  try dsimp only
  repeat' first
    | with_reducible assumption
    | with_reducible apply State.fresh_kept
    | with_reducible apply State.bumpMed_kept
    | with_reducible apply State.uncorrectable_kept
    | with_reducible apply State.putWord_kept
    | with_reducible apply kept_ite
    | split

theorem State.writerTold_kept {s0 : State} {s : State} {m : Mem} {addr : Nat} (h : Kept s0 s) :
    Kept s0 (State.writerTold s m addr) := by
  unfold State.writerTold
  try dsimp only
  repeat' first
    | with_reducible assumption
    | with_reducible apply State.uncorrectable_kept
    | with_reducible apply kept_ite
    | with_reducible rfl
    | simp only [List.length_modify, List.length_map, List.length_mapIdx]
    | with_reducible refine kept_mk (t := _) ?_ ?_ ?_

theorem State.writeBytes_kept {s0 : State} {s : State} {m : Mem} {addr : Nat} {offset : Nat} {data : Bytes} {found : Found} (h : Kept s0 s) :
    Kept s0 (State.writeBytes s m addr offset data found) := by
  unfold State.writeBytes
  try dsimp only
  repeat' first
    | with_reducible assumption
    | with_reducible apply State.fresh_kept
    | with_reducible apply State.bumpMed_kept
    | with_reducible apply State.putWord_kept
    | with_reducible apply State.writerTold_kept
    | with_reducible apply kept_ite
    | split

theorem execPartialWordWrite_kept {s0 : State} {mem : Mem} {addr : Nat} {offset : Nat} {data : Bytes} {found : Found} {s : State} (h : Kept s0 s) :
    KeptO s0 (execPartialWordWrite mem addr offset data found s) := by
  unfold execPartialWordWrite
  try dsimp only
  repeat' first
    | with_reducible assumption
    | with_reducible apply State.writeBytes_kept
    | with_reducible apply keptO_next
    | with_reducible apply keptO_fault
    | with_reducible apply keptO_ite
    | with_reducible apply kept_ite

theorem State.balance_kept {s0 : State} {s : State} {id : BlockId} {up : List Nat} {down : List Nat} (h : Kept s0 s) :
    Kept s0 (State.balance s id up down) := by
  unfold State.balance
  try dsimp only
  repeat' first
    | with_reducible assumption
    | with_reducible apply State.raise_kept
    | with_reducible apply kept_elim
    | with_reducible apply kept_ite
    | (with_reducible intro; with_reducible intros)
    | split
    | with_reducible rfl
    | simp only [List.length_modify, List.length_map, List.length_mapIdx]
    | with_reducible refine kept_mk (t := _) ?_ ?_ ?_
    | (show Media.words _ = _; rfl)

theorem State.walkFlash_kept {s0 : State} {s : State} {id : BlockId} {o : ReadOutcome} {corrected : Nat} {up : List Nat} {down : List Nat} {victims : List (Nat × Bytes × Nat)} (h : Kept s0 s) :
    Kept s0 (State.walkFlash s id o corrected up down victims) := by
  unfold State.walkFlash
  try dsimp only
  repeat' first
    | with_reducible assumption
    | with_reducible apply State.ladderCounted_kept
    | with_reducible apply State.blockRead_kept
    | with_reducible apply State.loseCodeword_kept
    | with_reducible apply State.balance_kept
    | with_reducible apply kept_ite
    | (with_reducible intro; with_reducible intros)
    | split
    | with_reducible rfl
    | simp only [List.length_modify, List.length_map, List.length_mapIdx]
    | with_reducible refine kept_mk (t := _) ?_ ?_ ?_
    | (show Media.words _ = _; rfl)

theorem State.walked_kept {s0 : State} {s : State} {i : Nat} (h : Kept s0 s) :
    Kept s0 (State.walked s i) := by
  unfold State.walked
  try dsimp only
  repeat' first
    | with_reducible assumption
    | with_reducible apply kept_ite
    | split
    | with_reducible rfl
    | simp only [List.length_modify, List.length_map, List.length_mapIdx]
    | with_reducible refine kept_mk (t := _) ?_ ?_ ?_
    | (show Media.words _ = _; rfl)

theorem State.walkBlock_kept {s0 : State} {s : State} {id : BlockId} {o : ReadOutcome} {corrected : Nat} {up : List Nat} {down : List Nat} {victims : List (Nat × Bytes × Nat)} (h : Kept s0 s) :
    Kept s0 (State.walkBlock s id o corrected up down victims) := by
  unfold State.walkBlock
  try dsimp only
  repeat' first
    | with_reducible assumption
    | with_reducible apply State.queueWork_kept
    | with_reducible apply State.walkFlash_kept
    | with_reducible apply State.walked_kept
    | with_reducible apply kept_ite
    | split
    | with_reducible rfl
    | simp only [List.length_modify, List.length_map, List.length_mapIdx]
    | with_reducible refine kept_mk (t := _) ?_ ?_ ?_
    | (show Media.words _ = _; rfl)

theorem State.walkTile_kept {s0 : State} {s : State} {parityGood : Bool} (h : Kept s0 s) :
    Kept s0 (State.walkTile s parityGood) := by
  unfold State.walkTile
  try dsimp only
  repeat' first
    | with_reducible assumption
    | with_reducible apply State.rulePerr_kept
    | with_reducible apply kept_ite

theorem execBurnisherWalk_kept {s0 : State} {piece : Piece} {s : State} (h : Kept s0 s) :
    KeptO s0 (execBurnisherWalk piece s) := by
  unfold execBurnisherWalk
  try dsimp only
  repeat' first
    | with_reducible assumption
    | with_reducible apply State.walkWord_kept
    | with_reducible apply State.walked_kept
    | with_reducible apply State.walkBlock_kept
    | with_reducible apply State.walkTile_kept
    | with_reducible apply keptO_next
    | with_reducible apply keptO_fault
    | with_reducible apply keptO_ite
    | with_reducible apply kept_ite
    | split

theorem execBlockRefresh_kept {s0 : State} {blk : BlockId} {to_ : BlockId} {s : State} (h : Kept s0 s) :
    KeptO s0 (execBlockRefresh blk to_ s) := by
  unfold execBlockRefresh
  try dsimp only
  repeat' first
    | with_reducible assumption
    | with_reducible apply State.bumpMed_kept
    | with_reducible apply State.retireBlock_kept
    | with_reducible apply keptO_next
    | with_reducible apply keptO_fault
    | with_reducible apply keptO_ite
    | with_reducible apply kept_ite
    | (with_reducible intro; with_reducible intros)
    | split
    | with_reducible rfl
    | simp only [List.length_modify, List.length_map, List.length_mapIdx]
    | with_reducible refine kept_mk (t := _) ?_ ?_ ?_
    | (show Media.words _ = _; rfl)

theorem execAgeCounterUpdate_kept {s0 : State} {s : State} (h : Kept s0 s) :
    KeptO s0 (execAgeCounterUpdate s) := by
  unfold execAgeCounterUpdate
  try dsimp only
  repeat' first
    | with_reducible assumption
    | with_reducible apply keptO_next
    | with_reducible apply keptO_fault
    | with_reducible apply keptO_ite
    | with_reducible apply kept_ite
    | split
    | with_reducible rfl
    | simp only [List.length_modify, List.length_map, List.length_mapIdx]
    | with_reducible refine kept_mk (t := _) ?_ ?_ ?_
    | (show Media.words _ = _; rfl)

theorem State.watchSpare_kept {s0 : State} {s : State} (h : Kept s0 s) :
    Kept s0 (State.watchSpare s) := by
  unfold State.watchSpare
  try dsimp only
  repeat' first
    | with_reducible assumption
    | with_reducible apply State.raise_kept
    | with_reducible apply kept_ite
    | split
    | with_reducible rfl
    | simp only [List.length_modify, List.length_map, List.length_mapIdx]
    | with_reducible refine kept_mk (t := _) ?_ ?_ ?_
    | (show Media.words _ = _; rfl)

theorem execDieRetire_kept {s0 : State} {ch : Fin 16} {die : Nat} {s : State} (h : Kept s0 s) :
    KeptO s0 (execDieRetire ch die s) := by
  unfold execDieRetire
  try dsimp only
  repeat' first
    | with_reducible assumption
    | with_reducible apply State.raise_kept
    | with_reducible apply State.watchSpare_kept
    | with_reducible apply keptO_next
    | with_reducible apply keptO_fault
    | with_reducible apply keptO_ite
    | with_reducible apply kept_ite
    | (with_reducible intro; with_reducible intros)
    | split
    | with_reducible rfl
    | simp only [List.length_modify, List.length_map, List.length_mapIdx]
    | with_reducible refine kept_mk (t := _) ?_ ?_ ?_
    | (show Media.words _ = _; rfl)

theorem execFabricBurstCut_kept {s0 : State} {s : State} (h : Kept s0 s) :
    KeptO s0 (execFabricBurstCut s) := by
  unfold execFabricBurstCut
  try dsimp only
  repeat' first
    | with_reducible assumption
    | with_reducible apply State.bumpMed_kept
    | with_reducible apply keptO_next
    | with_reducible apply keptO_fault
    | with_reducible apply keptO_ite

theorem execLifetimeRecordCopy_kept {s0 : State} {s : State} (h : Kept s0 s) :
    KeptO s0 (execLifetimeRecordCopy s) := by
  unfold execLifetimeRecordCopy
  try dsimp only
  repeat' first
    | with_reducible assumption
    | with_reducible apply keptO_next
    | with_reducible apply keptO_fault
    | with_reducible apply keptO_ite
    | with_reducible apply kept_ite
    | split
    | with_reducible rfl
    | simp only [List.length_modify, List.length_map, List.length_mapIdx]
    | with_reducible refine kept_mk (t := _) ?_ ?_ ?_
    | (show Media.words _ = _; rfl)

theorem State.measureBank_kept {s0 : State} {s : State} {mj : Nat} (h : Kept s0 s) :
    Kept s0 (State.measureBank s mj) := by
  unfold State.measureBank
  try dsimp only
  repeat' first
    | with_reducible assumption
    | with_reducible apply State.raise_kept
    | with_reducible apply kept_ite
    | split
    | with_reducible rfl
    | simp only [List.length_modify, List.length_map, List.length_mapIdx]
    | with_reducible refine kept_mk (t := _) ?_ ?_ ?_
    | (show Media.words _ = _; rfl)

theorem execHoldupMeasure_kept {s0 : State} {millijoules : Nat} {s : State} (h : Kept s0 s) :
    KeptO s0 (execHoldupMeasure millijoules s) := by
  unfold execHoldupMeasure
  try dsimp only
  repeat' first
    | with_reducible assumption
    | with_reducible apply State.measureBank_kept
    | with_reducible apply keptO_next
    | with_reducible apply keptO_fault
    | with_reducible apply keptO_ite
    | with_reducible apply kept_ite
    | with_reducible rfl
    | simp only [List.length_modify, List.length_map, List.length_mapIdx]
    | with_reducible refine kept_mk (t := _) ?_ ?_ ?_

theorem execHoldupChargeComplete_kept {s0 : State} {millijoules : Nat} {s : State} (h : Kept s0 s) :
    KeptO s0 (execHoldupChargeComplete millijoules s) := by
  unfold execHoldupChargeComplete
  try dsimp only
  repeat' first
    | with_reducible assumption
    | with_reducible apply State.measureBank_kept
    | with_reducible apply keptO_next
    | with_reducible apply keptO_fault
    | with_reducible apply keptO_ite
    | with_reducible apply kept_ite
    | with_reducible rfl
    | simp only [List.length_modify, List.length_map, List.length_mapIdx]
    | with_reducible refine kept_mk (t := _) ?_ ?_ ?_

end Sys2Proof.Laws
end

