-- ==== Sys2Proof/Laws/KeptRing.lean ====
section
/-! SUPPORT. What every operation of Machine/Ring.lean keeps. -/
namespace Sys2Proof.Laws
open Sys2Proof Sys2Proof.Machine

theorem State.ringSend_kept {s0 : State} {s : State} {type : Nat} {target : Nat} {body : Bytes} (h : Kept s0 s) :
    Kept s0 (State.ringSend s type target body) := by
  unfold State.ringSend
  try dsimp only
  repeat' first
    | with_reducible assumption
    | with_reducible rfl
    | simp only [List.length_modify, List.length_map, List.length_mapIdx]
    | with_reducible refine kept_mk (t := _) ?_ ?_ ?_

theorem State.buffered_kept {s0 : State} {s t : State} {primary : Bool} {frame : Bytes} (h : Kept s0 s)
    (e : State.buffered s primary frame = some t) : Kept s0 t := by
  unfold State.buffered at e
  dsimp only at e
  split at e
  · cases e
  · cases e
    exact h

theorem State.ringIn_kept {s0 : State} {s : State} {port : RingPort} {frame : Bytes} {type : Nat} {fwd : RingFrame → Option RingFrame} {act : RingFrame → State → State} (h : Kept s0 s) (hf : ∀ v0 v1, Kept s0 v1 → Kept s0 (act v0 v1)) :
    Kept s0 (State.ringIn s port frame type fwd act) := by
  unfold State.ringIn
  try dsimp only
  repeat' first
    | with_reducible assumption
    | with_reducible apply State.bump_kept
    | exact State.buffered_kept h (by assumption)
    | with_reducible apply hf
    | with_reducible apply kept_ite
    | split
    | with_reducible rfl
    | simp only [List.length_modify, List.length_map, List.length_mapIdx]
    | with_reducible refine kept_mk (t := _) ?_ ?_ ?_

theorem State.refuseAll_kept {s0 : State} {s : State} {es : List Entry} {st : Status} {param : Nat} (h : Kept s0 s) :
    Kept s0 (State.refuseAll s es st param) := by
  unfold State.refuseAll
  try dsimp only
  repeat' first
    | with_reducible assumption
    | with_reducible apply State.replyEntry_kept
    | with_reducible apply kept_foldl
    | (with_reducible intro; with_reducible intros)

theorem State.dropOwn_kept {s0 : State} {s : State} {p : Entry → Bool} {st : Status} {param : Nat} (h : Kept s0 s) :
    Kept s0 (State.dropOwn s p st param) := by
  unfold State.dropOwn
  try dsimp only
  repeat' first
    | with_reducible assumption
    | with_reducible apply State.refuseAll_kept
    | with_reducible rfl
    | simp only [List.length_modify, List.length_map, List.length_mapIdx]
    | with_reducible refine kept_mk (t := _) ?_ ?_ ?_

theorem State.fenceSet_kept {s0 : State} {s : State} {set : Nat} (h : Kept s0 s) :
    Kept s0 (State.fenceSet s set) := by
  unfold State.fenceSet
  try dsimp only
  repeat' first
    | with_reducible assumption
    | with_reducible apply State.fence_kept
    | with_reducible apply State.dropOwn_kept
    | (with_reducible intro; with_reducible intros)

theorem State.voidSet_kept {s0 : State} {s : State} {set : Nat} (h : Kept s0 s) :
    Kept s0 (State.voidSet s set) := by
  unfold State.voidSet
  try dsimp only
  repeat' first
    | with_reducible assumption
    | with_reducible apply State.refuseAll_kept
    | with_reducible apply State.dropOwn_kept
    | with_reducible apply kept_ite
    | (with_reducible intro; with_reducible intros)
    | split
    | with_reducible rfl
    | simp only [List.length_modify, List.length_map, List.length_mapIdx]
    | with_reducible refine kept_mk (t := _) ?_ ?_ ?_

theorem State.watchSet_kept {s0 : State} {s : State} {set : Nat} (h : Kept s0 s) :
    Kept s0 (State.watchSet s set) := by
  unfold State.watchSet
  try dsimp only
  repeat' first
    | with_reducible assumption
    | with_reducible apply State.raise_kept
    | with_reducible apply State.voidSet_kept
    | with_reducible apply kept_ite
    | (with_reducible intro; with_reducible intros)
    | split
    | with_reducible rfl
    | simp only [List.length_modify, List.length_map, List.length_mapIdx]
    | with_reducible refine kept_mk (t := _) ?_ ?_ ?_

theorem State.watchSets_kept {s0 : State} {s : State} (h : Kept s0 s) :
    Kept s0 (State.watchSets s) := by
  unfold State.watchSets
  try dsimp only
  repeat' first
    | with_reducible assumption
    | with_reducible apply State.watchSet_kept
    | with_reducible apply kept_foldl
    | (with_reducible intro; with_reducible intros)
    | with_reducible rfl
    | simp only [List.length_modify, List.length_map, List.length_mapIdx]
    | with_reducible refine kept_mk (t := _) ?_ ?_ ?_

theorem State.applySpanClose_kept {s0 : State} {s : State} {e : Entry} {index : Nat} (h : Kept s0 s) :
    Kept s0 (State.applySpanClose s e index) := by
  unfold State.applySpanClose
  try dsimp only
  repeat' first
    | with_reducible assumption
    | with_reducible apply State.applyClose_kept
    | with_reducible apply kept_elim
    | (with_reducible intro; with_reducible intros)
    | with_reducible rfl
    | simp only [List.length_modify, List.length_map, List.length_mapIdx]
    | with_reducible refine kept_mk (t := _) ?_ ?_ ?_

theorem State.applyEntry_kept {s0 : State} {s : State} {e : Entry} {index : Nat} {noted : Option Nat} {recs : List Rec} (h : Kept s0 s) :
    Kept s0 (State.applyEntry s e index noted recs) := by
  unfold State.applyEntry
  try dsimp only
  repeat' first
    | with_reducible assumption
    | with_reducible apply State.bump_kept
    | with_reducible apply State.raise_kept
    | with_reducible apply State.issueSeq_kept
    | with_reducible apply State.chainEntry_kept
    | with_reducible apply State.replyEntry_kept
    | with_reducible apply State.refuseEntry_kept
    | with_reducible apply State.installEntry_kept
    | with_reducible apply State.watchJournal_kept
    | with_reducible apply State.countRefusal_kept
    | with_reducible apply State.fenceSet_kept
    | with_reducible apply kept_ite
    | (with_reducible intro; with_reducible intros)
    | split
    | with_reducible rfl
    | simp only [List.length_modify, List.length_map, List.length_mapIdx]
    | with_reducible refine kept_mk (t := _) ?_ ?_ ?_

theorem State.applySystem_kept {s0 : State} {s : State} {e : BEntry} (h : Kept s0 s) :
    Kept s0 (State.applySystem s e) := by
  unfold State.applySystem
  try dsimp only
  repeat' first
    | with_reducible assumption
    | with_reducible apply State.setTimeAt_kept
    | split
    | with_reducible rfl
    | simp only [List.length_modify, List.length_map, List.length_mapIdx]
    | with_reducible refine kept_mk (t := _) ?_ ?_ ?_

theorem State.applyAt_kept {s0 : State} {s : State} {b : Batch} {i : Nat} {e : BEntry} (h : Kept s0 s) :
    Kept s0 (State.applyAt s b i e) := by
  unfold State.applyAt
  try dsimp only
  repeat' first
    | with_reducible assumption
    | with_reducible apply State.applySpanClose_kept
    | with_reducible apply State.applyEntry_kept
    | with_reducible apply State.applySystem_kept
    | with_reducible apply kept_ite
    | (with_reducible intro; with_reducible intros)
    | with_reducible rfl
    | simp only [List.length_modify, List.length_map, List.length_mapIdx]
    | with_reducible refine kept_mk (t := _) ?_ ?_ ?_

theorem State.fetchReplica_kept {s0 : State} {s : State} {t : Nat} {key : Bytes} (h : Kept s0 s) :
    Kept s0 (State.fetchReplica s t key) := by
  unfold State.fetchReplica
  try dsimp only
  repeat' first
    | with_reducible assumption
    | with_reducible apply State.queueFlows_kept
    | with_reducible apply kept_ite
    | (with_reducible intro; with_reducible intros)
    | split
    | with_reducible rfl
    | simp only [List.length_modify, List.length_map, List.length_mapIdx]
    | with_reducible refine kept_mk (t := _) ?_ ?_ ?_

theorem Walk.entry_kept {s0 : State} {look go : Bool} {b : Batch} {w : Walk} {i : Nat} {e : BEntry} (h : Kept s0 w.s) :
    Kept s0 (Walk.entry look go b w i e).s := by
  have hf (l : List Bytes) : Kept s0 (l.foldl (fun s k => s.fetchReplica e.ent.tenant k) w.s) :=
    kept_foldl _ l _ h (fun _ _ k => State.fetchReplica_kept k)
  unfold Walk.entry
  try dsimp only
  repeat' first
    | with_reducible assumption
    | exact State.applyAt_kept h
    | exact hf _
    | split

theorem Walk.batch_kept {s0 : State} {look : Bool} {go : Batch → Nat → BEntry → Bool} {w : Walk} {b : Batch}
    (h : Kept s0 w.s) : Kept s0 (Walk.batch look go w b).s := by
  unfold Walk.batch
  split
  · exact h
  · generalize b.entries.mapIdx (fun i e => (i, e)) = l
    induction l generalizing w with
    | nil => exact h
    | cons p rest ih => exact ih (Walk.entry_kept h)

theorem State.walkOrder_kept {s0 : State} {s : State} {look : Bool} {go : Batch → Nat → BEntry → Bool} (h : Kept s0 s) :
    Kept s0 (State.walkOrder s look go) := by
  unfold State.walkOrder
  generalize hw : ({ s := s, held := [], barrier := false } : Walk) = w
  have k : Kept s0 w.s := hw ▸ h
  generalize s.span.batches = l
  clear hw
  induction l generalizing w with
  | nil => exact k
  | cons b rest ih => exact ih _ (Walk.batch_kept k)

theorem State.advance_kept {s0 : State} {s : State} (h : Kept s0 s) :
    Kept s0 (State.advance s) := by
  unfold State.advance
  try dsimp only
  repeat' first
    | with_reducible assumption
    | with_reducible apply State.walkOrder_kept

theorem State.ahead_kept {s0 : State} {s : State} {index : Nat} (h : Kept s0 s) :
    Kept s0 (State.ahead s index) := by
  unfold State.ahead
  try dsimp only
  repeat' first
    | with_reducible assumption
    | with_reducible apply State.walkOrder_kept
    | (with_reducible intro; with_reducible intros)

theorem State.takeMarks_kept {s0 : State} {s : State} (h : Kept s0 s) :
    Kept s0 (State.takeMarks s) := by
  unfold State.takeMarks
  try dsimp only
  repeat' first
    | with_reducible assumption
    | with_reducible apply State.ahead_kept
    | with_reducible apply kept_ite
    | (with_reducible intro; with_reducible intros)
    | split
    | with_reducible rfl
    | simp only [List.length_modify, List.length_map, List.length_mapIdx]
    | with_reducible refine kept_mk (t := _) ?_ ?_ ?_

theorem State.sealAll_kept {s0 : State} {s : State} {t : Nat} {writes : List (Bytes × Option Bytes)} {seq : Nat}
    (h : Kept s0 s) : Kept s0 (State.sealAll s t writes seq).1 := by
  unfold State.sealAll
  apply kept_foldl_fst
  · exact h
  · intro p w k
    split
    · exact State.encryptOnce_kept k
    · exact k

theorem State.noteEntry_kept {s0 : State} {s : State} {p : State} {b : Batch} {i : Nat} {e : BEntry} (h : Kept s0 s) :
    Kept s0 (State.noteEntry s p b i e) := by
  unfold State.noteEntry
  try dsimp only
  repeat' first
    | with_reducible assumption
    | with_reducible apply State.addRecord_kept
    | with_reducible apply State.sealAll_kept
    | with_reducible apply kept_elim
    | (with_reducible intro; with_reducible intros)
    | split
    | with_reducible rfl
    | simp only [List.length_modify, List.length_map, List.length_mapIdx]
    | with_reducible refine kept_mk (t := _) ?_ ?_ ?_

theorem State.noteBatch_kept {s0 : State} {s : State} {b : Batch} (h : Kept s0 s) :
    Kept s0 (State.noteBatch s b) := by
  unfold State.noteBatch
  try dsimp only
  repeat' first
    | with_reducible assumption
    | with_reducible apply State.watchJournal_kept
    | with_reducible apply State.applyAt_kept
    | with_reducible apply State.ahead_kept
    | with_reducible apply State.noteEntry_kept
    | with_reducible apply kept_foldl
    | with_reducible apply kept_foldl_fst
    | dsimp only
    | with_reducible apply kept_ite
    | (with_reducible intro; with_reducible intros)
    | split

theorem State.prefetch_kept {s0 : State} {s : State} {b : Batch} (h : Kept s0 s) :
    Kept s0 (State.prefetch s b) := by
  unfold State.prefetch
  try dsimp only
  repeat' first
    | with_reducible assumption
    | with_reducible apply State.fetchReplica_kept
    | with_reducible apply kept_foldl
    | with_reducible apply kept_ite
    | (with_reducible intro; with_reducible intros)
    | split

theorem State.replicaRead_kept {s0 : State} {s : State} {id : Nat} {t : Nat} {r : Rec} {o : ReadOutcome} {blk : BlockId} {others : List (Nat × Bytes × Nat)} (h : Kept s0 s) :
    Kept s0 (State.replicaRead s id t r o blk others) := by
  unfold State.replicaRead
  try dsimp only
  repeat' first
    | with_reducible assumption
    | with_reducible apply State.dropFlows_kept
    | with_reducible apply State.ladderCounted_kept
    | with_reducible apply State.blockRead_kept
    | with_reducible apply State.recordRead_kept
    | with_reducible apply State.resumeFloors_kept
    | with_reducible apply State.advance_kept
    | with_reducible apply kept_ite
    | (with_reducible intro; with_reducible intros)
    | with_reducible rfl
    | simp only [List.length_modify, List.length_map, List.length_mapIdx]
    | with_reducible refine kept_mk (t := _) ?_ ?_ ?_

theorem execReadComplete_kept {s0 : State} {id : Nat} {outcome : ReadOutcome} {blk : BlockId} {others : List (Nat × Bytes × Nat)} {s : State} (h : Kept s0 s) :
    KeptO s0 (execReadComplete id outcome blk others s) := by
  unfold execReadComplete
  try dsimp only
  repeat' first
    | with_reducible assumption
    | with_reducible apply State.readComplete_kept
    | with_reducible apply State.replicaRead_kept
    | with_reducible apply keptO_next
    | with_reducible apply keptO_fault
    | with_reducible apply keptO_ite
    | (with_reducible intro; with_reducible intros)
    | split

end Sys2Proof.Laws
end

