-- ==== Sys2Proof/Laws/KeptSpan.lean ====
section
/-! SUPPORT. What every operation of Machine/Span.lean keeps. -/
namespace Sys2Proof.Laws
open Sys2Proof Sys2Proof.Machine

theorem State.leaveSpan_kept {s0 : State} {s : State} (h : Kept s0 s) :
    Kept s0 (State.leaveSpan s) := by
  unfold State.leaveSpan
  try dsimp only
  repeat' first
    | with_reducible assumption
    | with_reducible apply State.raiseSeq_kept
    | with_reducible apply kept_foldl
    | (with_reducible intro; with_reducible intros)
    | with_reducible rfl
    | simp only [List.length_modify, List.length_map, List.length_mapIdx]
    | with_reducible refine kept_mk (t := _) ?_ ?_ ?_

theorem State.answerSpan_kept {s0 : State} {s : State} {id : Option Nat} {st : Status} {param : Nat} (h : Kept s0 s) :
    Kept s0 (State.answerSpan s id st param) := by
  unfold State.answerSpan
  try dsimp only
  repeat' first
    | with_reducible assumption
    | with_reducible apply State.refuse_kept
    | split

theorem State.goOutside_kept {s0 : State} {s : State} (h : Kept s0 s) :
    Kept s0 (State.goOutside s) := by
  unfold State.goOutside
  try dsimp only
  repeat' first
    | with_reducible assumption
    | with_reducible apply State.replyEntry_kept
    | with_reducible apply State.refuseAll_kept
    | with_reducible apply State.watchSets_kept
    | with_reducible apply State.leaveSpan_kept
    | with_reducible apply State.answerSpan_kept
    | with_reducible apply kept_foldl
    | with_reducible apply kept_ite
    | (with_reducible intro; with_reducible intros)
    | with_reducible rfl
    | simp only [List.length_modify, List.length_map, List.length_mapIdx]
    | with_reducible refine kept_mk (t := _) ?_ ?_ ?_

theorem State.serveJoin_kept {s0 : State} {s : State} {d : Desc} (h : Kept s0 s) :
    Kept s0 (State.serveJoin s d) := by
  unfold State.serveJoin
  try dsimp only
  repeat' first
    | with_reducible assumption
    | with_reducible apply State.refuse_kept
    | with_reducible apply State.accept_kept
    | with_reducible apply kept_ite
    | split
    | with_reducible rfl
    | simp only [List.length_modify, List.length_map, List.length_mapIdx]
    | with_reducible refine kept_mk (t := _) ?_ ?_ ?_

theorem execSpanJoin_kept {s0 : State} {id : Nat} {s : State} (h : Kept s0 s) :
    KeptO s0 (execSpanJoin id s) := by
  unfold execSpanJoin
  try dsimp only
  repeat' first
    | with_reducible assumption
    | with_reducible apply State.serve_kept
    | with_reducible apply State.serveJoin_kept
    | with_reducible apply keptO_next
    | with_reducible apply keptO_fault
    | with_reducible apply keptO_ite
    | (with_reducible intro; with_reducible intros)

theorem execSpanJoinTimeout_kept {s0 : State} {s : State} (h : Kept s0 s) :
    KeptO s0 (execSpanJoinTimeout s) := by
  unfold execSpanJoinTimeout
  try dsimp only
  repeat' first
    | with_reducible assumption
    | with_reducible apply State.answerSpan_kept
    | with_reducible apply keptO_next
    | with_reducible apply keptO_fault
    | with_reducible apply keptO_ite
    | with_reducible apply kept_ite
    | split
    | with_reducible rfl
    | simp only [List.length_modify, List.length_map, List.length_mapIdx]
    | with_reducible refine kept_mk (t := _) ?_ ?_ ?_

theorem State.serveLeave_kept {s0 : State} {s : State} {d : Desc} (h : Kept s0 s) :
    Kept s0 (State.serveLeave s d) := by
  unfold State.serveLeave
  try dsimp only
  repeat' first
    | with_reducible assumption
    | with_reducible apply State.refuse_kept
    | with_reducible apply State.finish_kept
    | with_reducible apply State.accept_kept
    | with_reducible apply State.orderSystem_kept
    | with_reducible apply State.leaveSpan_kept
    | with_reducible apply kept_ite
    | split
    | with_reducible rfl
    | simp only [List.length_modify, List.length_map, List.length_mapIdx]
    | with_reducible refine kept_mk (t := _) ?_ ?_ ?_

theorem execSpanLeave_kept {s0 : State} {id : Nat} {s : State} (h : Kept s0 s) :
    KeptO s0 (execSpanLeave id s) := by
  unfold execSpanLeave
  try dsimp only
  repeat' first
    | with_reducible assumption
    | with_reducible apply State.serve_kept
    | with_reducible apply State.serveLeave_kept
    | with_reducible apply keptO_next
    | with_reducible apply keptO_fault
    | with_reducible apply keptO_ite
    | (with_reducible intro; with_reducible intros)

theorem execSpanStatus_kept {s0 : State} {id : Nat} {s : State} (h : Kept s0 s) :
    KeptO s0 (execSpanStatus id s) := by
  unfold execSpanStatus
  try dsimp only
  repeat' first
    | with_reducible assumption
    | with_reducible apply State.answer_kept
    | with_reducible apply State.serve_kept
    | with_reducible apply keptO_next
    | with_reducible apply keptO_fault
    | with_reducible apply keptO_ite
    | (with_reducible intro; with_reducible intros)

theorem State.cfgGo_kept {s0 : State} {s : State} (h : Kept s0 s) :
    Kept s0 (State.cfgGo s) := by
  unfold State.cfgGo
  try dsimp only
  repeat' first
    | with_reducible assumption
    | with_reducible apply State.orderSystem_kept
    | with_reducible apply kept_ite
    | split
    | with_reducible rfl
    | simp only [List.length_modify, List.length_map, List.length_mapIdx]
    | with_reducible refine kept_mk (t := _) ?_ ?_ ?_

theorem execSpnCfgGo_kept {s0 : State} {s : State} (h : Kept s0 s) :
    KeptO s0 (execSpnCfgGo s) := by
  unfold execSpnCfgGo
  try dsimp only
  repeat' first
    | with_reducible assumption
    | with_reducible apply State.cfgGo_kept
    | with_reducible apply keptO_next
    | with_reducible apply keptO_fault
    | with_reducible apply keptO_ite

theorem State.sendProbe_kept {s0 : State} {s : State} (h : Kept s0 s) :
    Kept s0 (State.sendProbe s) := by
  unfold State.sendProbe
  try dsimp only
  repeat' first
    | with_reducible assumption
    | with_reducible apply State.ringSend_kept

theorem execProbe_kept {s0 : State} {port : RingPort} {frame : Bytes} {s : State} (h : Kept s0 s) :
    KeptO s0 (execProbe port frame s) := by
  unfold execProbe
  try dsimp only
  repeat' first
    | with_reducible assumption
    | with_reducible apply State.ringSend_kept
    | with_reducible apply State.ringIn_kept
    | with_reducible apply keptO_next
    | with_reducible apply keptO_fault
    | with_reducible apply keptO_ite
    | (with_reducible intro; with_reducible intros)

theorem State.tookEcho_kept {s0 : State} {s : State} {f : RingFrame} {now : Nat} {upstream : Nat} (h : Kept s0 s) :
    Kept s0 (State.tookEcho s f now upstream) := by
  unfold State.tookEcho
  try dsimp only
  repeat' first
    | with_reducible assumption
    | with_reducible apply State.raise_kept
    | with_reducible apply kept_ite
    | with_reducible rfl
    | simp only [List.length_modify, List.length_map, List.length_mapIdx]
    | with_reducible refine kept_mk (t := _) ?_ ?_ ?_

theorem execProbeEcho_kept {s0 : State} {port : RingPort} {frame : Bytes} {now : Nat} {upstream : Nat} {s : State} (h : Kept s0 s) :
    KeptO s0 (execProbeEcho port frame now upstream s) := by
  unfold execProbeEcho
  try dsimp only
  repeat' first
    | with_reducible assumption
    | with_reducible apply State.ringIn_kept
    | with_reducible apply State.tookEcho_kept
    | with_reducible apply keptO_next
    | with_reducible apply keptO_fault
    | with_reducible apply keptO_ite
    | (with_reducible intro; with_reducible intros)

theorem execProbePeriod_kept {s0 : State} {s : State} (h : Kept s0 s) :
    KeptO s0 (execProbePeriod s) := by
  unfold execProbePeriod
  try dsimp only
  repeat' first
    | with_reducible assumption
    | with_reducible apply State.sendProbe_kept
    | with_reducible apply keptO_next
    | with_reducible apply keptO_fault
    | with_reducible apply keptO_ite
    | with_reducible apply kept_ite
    | split
    | with_reducible rfl
    | simp only [List.length_modify, List.length_map, List.length_mapIdx]
    | with_reducible refine kept_mk (t := _) ?_ ?_ ?_

theorem State.slotStarts_kept {s0 : State} {s : State} (h : Kept s0 s) :
    Kept s0 (State.slotStarts s) := by
  unfold State.slotStarts
  try dsimp only
  repeat' first
    | with_reducible assumption
    | with_reducible apply State.answerSpan_kept
    | with_reducible apply kept_ite
    | split
    | with_reducible rfl
    | simp only [List.length_modify, List.length_map, List.length_mapIdx]
    | with_reducible refine kept_mk (t := _) ?_ ?_ ?_

theorem execSlotStart_kept {s0 : State} {s : State} (h : Kept s0 s) :
    KeptO s0 (execSlotStart s) := by
  unfold execSlotStart
  try dsimp only
  repeat' first
    | with_reducible assumption
    | with_reducible apply State.slotStarts_kept
    | with_reducible apply keptO_next
    | with_reducible apply keptO_fault
    | with_reducible apply keptO_ite

theorem State.sendAck_kept {s0 : State} {s : State} {b : Batch} (h : Kept s0 s) :
    Kept s0 (State.sendAck s b) := by
  unfold State.sendAck
  try dsimp only
  repeat' first
    | with_reducible assumption
    | with_reducible apply State.ringSend_kept
    | (with_reducible intro; with_reducible intros)
    | with_reducible rfl
    | simp only [List.length_modify, List.length_map, List.length_mapIdx]
    | with_reducible refine kept_mk (t := _) ?_ ?_ ?_

theorem State.sendBatch_kept {s0 : State} {s : State} (h : Kept s0 s) :
    Kept s0 (State.sendBatch s) := by
  unfold State.sendBatch
  try dsimp only
  repeat' first
    | with_reducible assumption
    | with_reducible apply State.ringSend_kept
    | with_reducible apply State.dropOwn_kept
    | with_reducible apply State.noteBatch_kept
    | with_reducible apply State.sendAck_kept
    | with_reducible apply kept_foldl
    | with_reducible apply kept_ite
    | (with_reducible intro; with_reducible intros)
    | with_reducible rfl
    | simp only [List.length_modify, List.length_map, List.length_mapIdx]
    | with_reducible refine kept_mk (t := _) ?_ ?_ ?_

theorem State.sendReports_kept {s0 : State} {s : State} (h : Kept s0 s) :
    Kept s0 (State.sendReports s) := by
  unfold State.sendReports
  try dsimp only
  repeat' first
    | with_reducible assumption
    | with_reducible apply State.ringSend_kept
    | with_reducible apply kept_foldl
    | (with_reducible intro; with_reducible intros)
    | with_reducible rfl
    | simp only [List.length_modify, List.length_map, List.length_mapIdx]
    | with_reducible refine kept_mk (t := _) ?_ ?_ ?_

theorem State.windowCloses_kept {s0 : State} {s : State} (h : Kept s0 s) :
    Kept s0 (State.windowCloses s) := by
  unfold State.windowCloses
  try dsimp only
  repeat' first
    | with_reducible assumption
    | with_reducible apply State.ringSend_kept
    | with_reducible apply State.takeMarks_kept
    | with_reducible apply State.sendBatch_kept
    | with_reducible apply State.sendReports_kept
    | with_reducible apply kept_ite
    | split
    | with_reducible rfl
    | simp only [List.length_modify, List.length_map, List.length_mapIdx]
    | with_reducible refine kept_mk (t := _) ?_ ?_ ?_

theorem execWindowClose_kept {s0 : State} {s : State} (h : Kept s0 s) :
    KeptO s0 (execWindowClose s) := by
  unfold execWindowClose
  try dsimp only
  repeat' first
    | with_reducible assumption
    | with_reducible apply State.windowCloses_kept
    | with_reducible apply keptO_next
    | with_reducible apply keptO_fault
    | with_reducible apply keptO_ite

theorem State.forfeitSlot_kept {s0 : State} {s : State} {start : Nat} (h : Kept s0 s) :
    Kept s0 (State.forfeitSlot s start) := by
  unfold State.forfeitSlot
  try dsimp only
  repeat' first
    | with_reducible assumption
    | with_reducible apply State.bump_kept
    | with_reducible apply State.dropOwn_kept
    | with_reducible apply State.goOutside_kept
    | with_reducible apply kept_elim
    | with_reducible apply kept_ite
    | (with_reducible intro; with_reducible intros)
    | with_reducible rfl
    | simp only [List.length_modify, List.length_map, List.length_mapIdx]
    | with_reducible refine kept_mk (t := _) ?_ ?_ ?_

theorem State.actOnPhase_kept {s0 : State} {s : State} {e : Int} {start : Nat} (h : Kept s0 s) :
    Kept s0 (State.actOnPhase s e start) := by
  unfold State.actOnPhase
  try dsimp only
  repeat' first
    | with_reducible assumption
    | with_reducible apply State.forfeitSlot_kept
    | with_reducible apply kept_ite
    | with_reducible rfl
    | simp only [List.length_modify, List.length_map, List.length_mapIdx]
    | with_reducible refine kept_mk (t := _) ?_ ?_ ?_

theorem State.followWall_kept {s0 : State} {s : State} {rein : Bytes} (h : Kept s0 s) :
    Kept s0 (State.followWall s rein) := by
  unfold State.followWall
  try dsimp only
  repeat' first
    | with_reducible assumption
    | with_reducible apply kept_ite
    | with_reducible rfl
    | simp only [List.length_modify, List.length_map, List.length_mapIdx]
    | with_reducible refine kept_mk (t := _) ?_ ?_ ?_

theorem State.resend_kept {s0 : State} {s : State} {b : Batch} (h : Kept s0 s) :
    Kept s0 (State.resend s b) := by
  unfold State.resend
  try dsimp only
  repeat' first
    | with_reducible assumption
    | with_reducible apply State.refuseAll_kept
    | with_reducible apply kept_elim
    | (with_reducible intro; with_reducible intros)
    | with_reducible rfl
    | simp only [List.length_modify, List.length_map, List.length_mapIdx]
    | with_reducible refine kept_mk (t := _) ?_ ?_ ?_

theorem State.coverBatches_kept {s0 : State} {s : State} {sender : Nat} {next : Nat} (h : Kept s0 s) :
    Kept s0 (State.coverBatches s sender next) := by
  unfold State.coverBatches
  try dsimp only
  repeat' first
    | with_reducible assumption
    | with_reducible apply State.bumpBy_kept
    | with_reducible apply State.resend_kept
    | with_reducible apply kept_foldl
    | with_reducible apply kept_ite
    | (with_reducible intro; with_reducible intros)
    | with_reducible rfl
    | simp only [List.length_modify, List.length_map, List.length_mapIdx]
    | with_reducible refine kept_mk (t := _) ?_ ?_ ?_

theorem State.tendBatches_kept {s0 : State} {s : State} (h : Kept s0 s) :
    Kept s0 (State.tendBatches s) := by
  unfold State.tendBatches
  try dsimp only
  repeat' first
    | with_reducible assumption
    | with_reducible apply State.ringSend_kept
    | with_reducible apply State.noteBatch_kept
    | with_reducible apply State.sendAck_kept
    | with_reducible apply kept_foldl
    | with_reducible apply kept_ite
    | (with_reducible intro; with_reducible intros)
    | with_reducible rfl
    | simp only [List.length_modify, List.length_map, List.length_mapIdx]
    | with_reducible refine kept_mk (t := _) ?_ ?_ ?_

theorem State.orderRemove_kept {s0 : State} {s : State} {m : Nat} (h : Kept s0 s) :
    Kept s0 (State.orderRemove s m) := by
  unfold State.orderRemove
  try dsimp only
  repeat' first
    | with_reducible assumption
    | with_reducible apply State.orderSystem_kept
    | with_reducible apply kept_ite
    | (with_reducible intro; with_reducible intros)
    | split

theorem State.startResync_kept {s0 : State} {s : State} (h : Kept s0 s) :
    Kept s0 (State.startResync s) := by
  unfold State.startResync
  try dsimp only
  repeat' first
    | with_reducible assumption
    | with_reducible apply State.ringSend_kept
    | with_reducible apply kept_elim
    | with_reducible apply kept_ite
    | (with_reducible intro; with_reducible intros)
    | split
    | with_reducible rfl
    | simp only [List.length_modify, List.length_map, List.length_mapIdx]
    | with_reducible refine kept_mk (t := _) ?_ ?_ ?_

theorem State.compareDigest_kept {s0 : State} {s : State} {sender : Nat} {y : SetState} (h : Kept s0 s) :
    Kept s0 (State.compareDigest s sender y) := by
  unfold State.compareDigest
  try dsimp only
  repeat' first
    | with_reducible assumption
    | with_reducible apply State.bump_kept
    | with_reducible apply kept_ite
    | (with_reducible intro; with_reducible intros)
    | split
    | split
    | simp only [Option.getD_some, Option.getD_none]
    | with_reducible rfl
    | simp only [List.length_modify, List.length_map, List.length_mapIdx]
    | with_reducible refine kept_mk (t := _) ?_ ?_ ?_

theorem State.reinMember_kept {s0 : State} {s : State} {f : RingFrame} {at_ : Nat} (h : Kept s0 s) :
    Kept s0 (State.reinMember s f at_) := by
  unfold State.reinMember
  try dsimp only
  repeat' first
    | with_reducible assumption
    | with_reducible apply State.raise_kept
    | with_reducible apply State.resumeFloors_kept
    | with_reducible apply State.watchSets_kept
    | with_reducible apply State.advance_kept
    | with_reducible apply State.takeMarks_kept
    | with_reducible apply State.goOutside_kept
    | with_reducible apply State.sendProbe_kept
    | with_reducible apply State.actOnPhase_kept
    | with_reducible apply State.followWall_kept
    | with_reducible apply State.coverBatches_kept
    | with_reducible apply State.tendBatches_kept
    | with_reducible apply State.orderRemove_kept
    | with_reducible apply State.startResync_kept
    | with_reducible apply State.compareDigest_kept
    | with_reducible apply kept_foldl
    | with_reducible apply kept_ite
    | (with_reducible intro; with_reducible intros)
    | with_reducible rfl
    | simp only [List.length_modify, List.length_map, List.length_mapIdx]
    | with_reducible refine kept_mk (t := _) ?_ ?_ ?_

theorem State.sendJoinReq_kept {s0 : State} {s : State} (h : Kept s0 s) :
    Kept s0 (State.sendJoinReq s) := by
  unfold State.sendJoinReq
  try dsimp only
  repeat' first
    | with_reducible assumption
    | with_reducible apply State.ringSend_kept

theorem State.becomeMember_kept {s0 : State} {s : State} {r : Bytes} (h : Kept s0 s) :
    Kept s0 (State.becomeMember s r) := by
  unfold State.becomeMember
  try dsimp only
  repeat' first
    | with_reducible assumption
    | with_reducible apply State.watchSets_kept
    | with_reducible apply State.startResync_kept
    | with_reducible apply kept_elim
    | (with_reducible intro; with_reducible intros)
    | with_reducible rfl
    | simp only [List.length_modify, List.length_map, List.length_mapIdx]
    | with_reducible refine kept_mk (t := _) ?_ ?_ ?_

theorem State.keptOut_kept {s0 : State} {s : State} {code : Nat} {a : Nat} {b : Nat} {c : Nat} {st : Status} {param : Nat} (h : Kept s0 s) :
    Kept s0 (State.keptOut s code a b c st param) := by
  unfold State.keptOut
  try dsimp only
  repeat' first
    | with_reducible assumption
    | with_reducible apply State.raise_kept
    | with_reducible apply State.answerSpan_kept
    | with_reducible apply kept_ite
    | with_reducible rfl
    | simp only [List.length_modify, List.length_map, List.length_mapIdx]
    | with_reducible refine kept_mk (t := _) ?_ ?_ ?_

theorem State.reinJoining_kept {s0 : State} {s : State} {r : Bytes} (h : Kept s0 s) :
    Kept s0 (State.reinJoining s r) := by
  unfold State.reinJoining
  try dsimp only
  repeat' first
    | with_reducible assumption
    | with_reducible apply State.fresh_kept
    | with_reducible apply State.refuse_kept
    | with_reducible apply State.sendProbe_kept
    | with_reducible apply State.sendJoinReq_kept
    | with_reducible apply State.becomeMember_kept
    | with_reducible apply State.keptOut_kept
    | with_reducible apply kept_ite
    | split
    | with_reducible rfl
    | simp only [List.length_modify, List.length_map, List.length_mapIdx]
    | with_reducible refine kept_mk (t := _) ?_ ?_ ?_

theorem execRein_kept {s0 : State} {port : RingPort} {frame : Bytes} {arrival : Nat} {s : State} (h : Kept s0 s) :
    KeptO s0 (execRein port frame arrival s) := by
  unfold execRein
  try dsimp only
  repeat' first
    | with_reducible assumption
    | with_reducible apply State.ringIn_kept
    | with_reducible apply State.reinMember_kept
    | with_reducible apply State.reinJoining_kept
    | with_reducible apply keptO_next
    | with_reducible apply keptO_fault
    | with_reducible apply keptO_ite
    | with_reducible apply kept_ite
    | (with_reducible intro; with_reducible intros)
    | split

theorem State.regenerate_kept {s0 : State} {s : State} (h : Kept s0 s) :
    Kept s0 (State.regenerate s) := by
  unfold State.regenerate
  try dsimp only
  repeat' first
    | with_reducible assumption
    | with_reducible apply State.bump_kept
    | with_reducible apply State.forfeitSlot_kept
    | with_reducible apply kept_ite
    | (with_reducible intro; with_reducible intros)
    | split
    | with_reducible rfl
    | simp only [List.length_modify, List.length_map, List.length_mapIdx]
    | with_reducible refine kept_mk (t := _) ?_ ?_ ?_

theorem execReinRegenerate_kept {s0 : State} {s : State} (h : Kept s0 s) :
    KeptO s0 (execReinRegenerate s) := by
  unfold execReinRegenerate
  try dsimp only
  repeat' first
    | with_reducible assumption
    | with_reducible apply State.regenerate_kept
    | with_reducible apply keptO_next
    | with_reducible apply keptO_fault
    | with_reducible apply keptO_ite

theorem State.silentSlot_kept {s0 : State} {s : State} {m : Nat} (h : Kept s0 s) :
    Kept s0 (State.silentSlot s m) := by
  unfold State.silentSlot
  try dsimp only
  repeat' first
    | with_reducible assumption
    | with_reducible apply State.watchSets_kept
    | with_reducible apply State.orderRemove_kept
    | with_reducible apply kept_ite
    | split
    | with_reducible rfl
    | simp only [List.length_modify, List.length_map, List.length_mapIdx]
    | with_reducible refine kept_mk (t := _) ?_ ?_ ?_

theorem execSilentMember_kept {s0 : State} {member : Nat} {s : State} (h : Kept s0 s) :
    KeptO s0 (execSilentMember member s) := by
  unfold execSilentMember
  try dsimp only
  repeat' first
    | with_reducible assumption
    | with_reducible apply State.silentSlot_kept
    | with_reducible apply keptO_next
    | with_reducible apply keptO_fault
    | with_reducible apply keptO_ite

theorem State.batchFrame_kept {s0 : State} {s : State} {f : RingFrame} (h : Kept s0 s) :
    Kept s0 (State.batchFrame s f) := by
  unfold State.batchFrame
  try dsimp only
  repeat' first
    | with_reducible assumption
    | with_reducible apply kept_ite
    | (with_reducible intro; with_reducible intros)
    | with_reducible rfl
    | simp only [List.length_modify, List.length_map, List.length_mapIdx]
    | with_reducible refine kept_mk (t := _) ?_ ?_ ?_

theorem execBatch_kept {s0 : State} {port : RingPort} {frame : Bytes} {s : State} (h : Kept s0 s) :
    KeptO s0 (execBatch port frame s) := by
  unfold execBatch
  try dsimp only
  repeat' first
    | with_reducible assumption
    | with_reducible apply State.ringIn_kept
    | with_reducible apply State.batchFrame_kept
    | with_reducible apply keptO_next
    | with_reducible apply keptO_fault
    | with_reducible apply keptO_ite
    | (with_reducible intro; with_reducible intros)

theorem State.batchWhole_kept {s0 : State} {s : State} {first : Nat} {origin : Nat} (h : Kept s0 s) :
    Kept s0 (State.batchWhole s first origin) := by
  unfold State.batchWhole
  try dsimp only
  repeat' first
    | with_reducible assumption
    | with_reducible apply State.noteBatch_kept
    | with_reducible apply State.prefetch_kept
    | with_reducible apply State.sendAck_kept
    | with_reducible apply kept_foldl
    | with_reducible apply kept_ite
    | (with_reducible intro; with_reducible intros)
    | split
    | with_reducible rfl
    | simp only [List.length_modify, List.length_map, List.length_mapIdx]
    | with_reducible refine kept_mk (t := _) ?_ ?_ ?_

theorem State.trailerFrame_kept {s0 : State} {s : State} {f : RingFrame} (h : Kept s0 s) :
    Kept s0 (State.trailerFrame s f) := by
  unfold State.trailerFrame
  try dsimp only
  repeat' first
    | with_reducible assumption
    | with_reducible apply State.batchWhole_kept
    | with_reducible apply kept_elim
    | with_reducible apply kept_ite
    | (with_reducible intro; with_reducible intros)
    | with_reducible rfl
    | simp only [List.length_modify, List.length_map, List.length_mapIdx]
    | with_reducible refine kept_mk (t := _) ?_ ?_ ?_

theorem execTrailer_kept {s0 : State} {port : RingPort} {frame : Bytes} {s : State} (h : Kept s0 s) :
    KeptO s0 (execTrailer port frame s) := by
  unfold execTrailer
  try dsimp only
  repeat' first
    | with_reducible assumption
    | with_reducible apply State.ringIn_kept
    | with_reducible apply State.trailerFrame_kept
    | with_reducible apply keptO_next
    | with_reducible apply keptO_fault
    | with_reducible apply keptO_ite
    | (with_reducible intro; with_reducible intros)

theorem State.ackFrame_kept {s0 : State} {s : State} {f : RingFrame} (h : Kept s0 s) :
    Kept s0 (State.ackFrame s f) := by
  unfold State.ackFrame
  try dsimp only
  repeat' first
    | with_reducible assumption
    | with_reducible apply State.watchSets_kept
    | with_reducible apply kept_ite
    | (with_reducible intro; with_reducible intros)
    | with_reducible rfl
    | simp only [List.length_modify, List.length_map, List.length_mapIdx]
    | with_reducible refine kept_mk (t := _) ?_ ?_ ?_

theorem execAck_kept {s0 : State} {port : RingPort} {frame : Bytes} {s : State} (h : Kept s0 s) :
    KeptO s0 (execAck port frame s) := by
  unfold execAck
  try dsimp only
  repeat' first
    | with_reducible assumption
    | with_reducible apply State.ringIn_kept
    | with_reducible apply State.ackFrame_kept
    | with_reducible apply keptO_next
    | with_reducible apply keptO_fault
    | with_reducible apply keptO_ite
    | (with_reducible intro; with_reducible intros)

theorem State.batchCommits_kept {s0 : State} {s : State} {first : Nat} {set : Nat} (h : Kept s0 s) :
    Kept s0 (State.batchCommits s first set) := by
  unfold State.batchCommits
  try dsimp only
  repeat' first
    | with_reducible assumption
    | with_reducible apply State.resumeFloors_kept
    | with_reducible apply State.advance_kept
    | with_reducible apply kept_ite
    | (with_reducible intro; with_reducible intros)
    | split

theorem execBatchCommit_kept {s0 : State} {orderFirst : Nat} {set : Nat} {s : State} (h : Kept s0 s) :
    KeptO s0 (execBatchCommit orderFirst set s) := by
  unfold execBatchCommit
  try dsimp only
  repeat' first
    | with_reducible assumption
    | with_reducible apply State.batchCommits_kept
    | with_reducible apply keptO_next
    | with_reducible apply keptO_fault
    | with_reducible apply keptO_ite

theorem State.sendCopies_kept {s0 : State} {s : State} {b : Batch} {to_ : Nat} (h : Kept s0 s) :
    Kept s0 (State.sendCopies s b to_) := by
  unfold State.sendCopies
  try dsimp only
  repeat' first
    | with_reducible assumption
    | with_reducible apply State.ringSend_kept
    | with_reducible apply kept_foldl
    | (with_reducible intro; with_reducible intros)

theorem execBatchReq_kept {s0 : State} {port : RingPort} {frame : Bytes} {s : State} (h : Kept s0 s) :
    KeptO s0 (execBatchReq port frame s) := by
  unfold execBatchReq
  try dsimp only
  repeat' first
    | with_reducible assumption
    | with_reducible apply State.ringIn_kept
    | with_reducible apply State.sendCopies_kept
    | with_reducible apply keptO_next
    | with_reducible apply keptO_fault
    | with_reducible apply keptO_ite
    | with_reducible apply kept_ite
    | (with_reducible intro; with_reducible intros)
    | split

theorem State.copyFrame_kept {s0 : State} {s : State} {f : RingFrame} (h : Kept s0 s) :
    Kept s0 (State.copyFrame s f) := by
  unfold State.copyFrame
  try dsimp only
  repeat' first
    | with_reducible assumption
    | with_reducible apply State.bump_kept
    | with_reducible apply State.advance_kept
    | with_reducible apply State.batchWhole_kept
    | with_reducible apply kept_ite
    | (with_reducible intro; with_reducible intros)
    | split
    | with_reducible rfl
    | simp only [List.length_modify, List.length_map, List.length_mapIdx]
    | with_reducible refine kept_mk (t := _) ?_ ?_ ?_

theorem execBatchResend_kept {s0 : State} {port : RingPort} {frame : Bytes} {s : State} (h : Kept s0 s) :
    KeptO s0 (execBatchResend port frame s) := by
  unfold execBatchResend
  try dsimp only
  repeat' first
    | with_reducible assumption
    | with_reducible apply State.ringIn_kept
    | with_reducible apply State.copyFrame_kept
    | with_reducible apply keptO_next
    | with_reducible apply keptO_fault
    | with_reducible apply keptO_ite
    | with_reducible apply kept_ite
    | (with_reducible intro; with_reducible intros)

theorem State.repairFails_kept {s0 : State} {s : State} {first : Nat} (h : Kept s0 s) :
    Kept s0 (State.repairFails s first) := by
  unfold State.repairFails
  try dsimp only
  repeat' first
    | with_reducible assumption
    | with_reducible apply State.fenceSet_kept
    | with_reducible apply State.watchSets_kept
    | with_reducible apply kept_foldl
    | with_reducible apply kept_elim
    | (with_reducible intro; with_reducible intros)
    | split
    | with_reducible rfl
    | simp only [List.length_modify, List.length_map, List.length_mapIdx]
    | with_reducible refine kept_mk (t := _) ?_ ?_ ?_

theorem execBatchRepairTimeout_kept {s0 : State} {orderFirst : Nat} {s : State} (h : Kept s0 s) :
    KeptO s0 (execBatchRepairTimeout orderFirst s) := by
  unfold execBatchRepairTimeout
  try dsimp only
  repeat' first
    | with_reducible assumption
    | with_reducible apply State.repairFails_kept
    | with_reducible apply keptO_next
    | with_reducible apply keptO_fault
    | with_reducible apply keptO_ite

theorem execDigestReport_kept {s0 : State} {port : RingPort} {frame : Bytes} {s : State} (h : Kept s0 s) :
    KeptO s0 (execDigestReport port frame s) := by
  unfold execDigestReport
  try dsimp only
  repeat' first
    | with_reducible assumption
    | with_reducible apply State.ringIn_kept
    | with_reducible apply keptO_next
    | with_reducible apply keptO_fault
    | with_reducible apply keptO_ite
    | (with_reducible intro; with_reducible intros)
    | with_reducible rfl
    | simp only [List.length_modify, List.length_map, List.length_mapIdx]
    | with_reducible refine kept_mk (t := _) ?_ ?_ ?_

theorem State.decideDigest_kept {s0 : State} {s : State} {r : Report} (h : Kept s0 s) :
    Kept s0 (State.decideDigest s r) := by
  unfold State.decideDigest
  try dsimp only
  repeat' first
    | with_reducible assumption
    | with_reducible apply State.raise_kept
    | with_reducible apply State.fenceSet_kept
    | with_reducible apply kept_ite
    | (with_reducible intro; with_reducible intros)
    | split
    | with_reducible rfl
    | simp only [List.length_modify, List.length_map, List.length_mapIdx]
    | with_reducible refine kept_mk (t := _) ?_ ?_ ?_

theorem State.digestDecides_kept {s0 : State} {s : State} (h : Kept s0 s) :
    Kept s0 (State.digestDecides s) := by
  unfold State.digestDecides
  try dsimp only
  repeat' first
    | with_reducible assumption
    | with_reducible apply State.watchSets_kept
    | with_reducible apply State.decideDigest_kept
    | with_reducible apply kept_foldl
    | with_reducible apply kept_ite
    | (with_reducible intro; with_reducible intros)
    | with_reducible rfl
    | simp only [List.length_modify, List.length_map, List.length_mapIdx]
    | with_reducible refine kept_mk (t := _) ?_ ?_ ?_

theorem execDigestDecision_kept {s0 : State} {s : State} (h : Kept s0 s) :
    KeptO s0 (execDigestDecision s) := by
  unfold execDigestDecision
  try dsimp only
  repeat' first
    | with_reducible assumption
    | with_reducible apply State.digestDecides_kept
    | with_reducible apply keptO_next
    | with_reducible apply keptO_fault
    | with_reducible apply keptO_ite

theorem State.rotate_kept {s0 : State} {s : State} {y : Span} (h : Kept s0 s) :
    Kept s0 (State.rotate s y) := by
  unfold State.rotate
  try dsimp only
  repeat' first
    | with_reducible assumption
    | with_reducible apply State.watchSets_kept
    | with_reducible apply kept_ite
    | (with_reducible intro; with_reducible intros)
    | split
    | with_reducible rfl
    | simp only [List.length_modify, List.length_map, List.length_mapIdx]
    | with_reducible refine kept_mk (t := _) ?_ ?_ ?_

theorem State.openSpan_kept {s0 : State} {s : State} (h : Kept s0 s) :
    Kept s0 (State.openSpan s) := by
  unfold State.openSpan
  try dsimp only
  repeat' first
    | with_reducible assumption
    | with_reducible apply State.watchSets_kept
    | (with_reducible intro; with_reducible intros)
    | with_reducible rfl
    | simp only [List.length_modify, List.length_map, List.length_mapIdx]
    | with_reducible refine kept_mk (t := _) ?_ ?_ ?_

theorem State.rotationStarts_kept {s0 : State} {s : State} (h : Kept s0 s) :
    Kept s0 (State.rotationStarts s) := by
  unfold State.rotationStarts
  try dsimp only
  repeat' first
    | with_reducible assumption
    | with_reducible apply State.refuseAll_kept
    | with_reducible apply State.leaveSpan_kept
    | with_reducible apply State.answerSpan_kept
    | with_reducible apply State.goOutside_kept
    | with_reducible apply State.rotate_kept
    | with_reducible apply State.openSpan_kept
    | with_reducible apply kept_elim
    | with_reducible apply kept_ite
    | (with_reducible intro; with_reducible intros)
    | split
    | with_reducible rfl
    | simp only [List.length_modify, List.length_map, List.length_mapIdx]
    | with_reducible refine kept_mk (t := _) ?_ ?_ ?_

theorem execRotationStart_kept {s0 : State} {s : State} (h : Kept s0 s) :
    KeptO s0 (execRotationStart s) := by
  unfold execRotationStart
  try dsimp only
  repeat' first
    | with_reducible assumption
    | with_reducible apply State.rotationStarts_kept
    | with_reducible apply keptO_next
    | with_reducible apply keptO_fault
    | with_reducible apply keptO_ite

theorem State.joinFrame_kept {s0 : State} {s : State} {f : RingFrame} (h : Kept s0 s) :
    Kept s0 (State.joinFrame s f) := by
  unfold State.joinFrame
  try dsimp only
  repeat' first
    | with_reducible assumption
    | with_reducible apply State.orderSystem_kept
    | with_reducible apply State.ringSend_kept
    | with_reducible apply kept_ite
    | (with_reducible intro; with_reducible intros)
    | split

theorem execJoinReq_kept {s0 : State} {port : RingPort} {frame : Bytes} {s : State} (h : Kept s0 s) :
    KeptO s0 (execJoinReq port frame s) := by
  unfold execJoinReq
  try dsimp only
  repeat' first
    | with_reducible assumption
    | with_reducible apply State.ringIn_kept
    | with_reducible apply State.joinFrame_kept
    | with_reducible apply keptO_next
    | with_reducible apply keptO_fault
    | with_reducible apply keptO_ite
    | (with_reducible intro; with_reducible intros)

theorem State.configFrame_kept {s0 : State} {s : State} {f : RingFrame} (h : Kept s0 s) :
    Kept s0 (State.configFrame s f) := by
  unfold State.configFrame
  try dsimp only
  repeat' first
    | with_reducible assumption
    | with_reducible apply State.keptOut_kept
    | with_reducible apply kept_ite
    | split
    | with_reducible rfl
    | simp only [List.length_modify, List.length_map, List.length_mapIdx]
    | with_reducible refine kept_mk (t := _) ?_ ?_ ?_

theorem execConfigXfer_kept {s0 : State} {port : RingPort} {frame : Bytes} {s : State} (h : Kept s0 s) :
    KeptO s0 (execConfigXfer port frame s) := by
  unfold execConfigXfer
  try dsimp only
  repeat' first
    | with_reducible assumption
    | with_reducible apply State.ringIn_kept
    | with_reducible apply State.configFrame_kept
    | with_reducible apply keptO_next
    | with_reducible apply keptO_fault
    | with_reducible apply keptO_ite
    | (with_reducible intro; with_reducible intros)

theorem State.streamSet_kept {s0 : State} {s : State} {f : RingFrame} (h : Kept s0 s) :
    Kept s0 (State.streamSet s f) := by
  unfold State.streamSet
  try dsimp only
  repeat' first
    | with_reducible assumption
    | with_reducible apply State.queueWork_kept
    | with_reducible apply State.ringSend_kept
    | with_reducible apply kept_foldl
    | with_reducible apply kept_ite
    | (with_reducible intro; with_reducible intros)
    | split

theorem execResyncReq_kept {s0 : State} {port : RingPort} {frame : Bytes} {s : State} (h : Kept s0 s) :
    KeptO s0 (execResyncReq port frame s) := by
  unfold execResyncReq
  try dsimp only
  repeat' first
    | with_reducible assumption
    | with_reducible apply State.ringIn_kept
    | with_reducible apply State.streamSet_kept
    | with_reducible apply keptO_next
    | with_reducible apply keptO_fault
    | with_reducible apply keptO_ite
    | (with_reducible intro; with_reducible intros)

theorem State.installRecord_kept {s0 : State} {s : State} {r : Resync} {b : Bytes} (h : Kept s0 s) :
    Kept s0 (State.installRecord s r b) := by
  unfold State.installRecord
  try dsimp only
  repeat' first
    | with_reducible assumption
    | with_reducible apply State.sealUp_kept
    | with_reducible apply State.raiseSeq_kept
    | with_reducible apply kept_ite
    | (with_reducible intro; with_reducible intros)
    | with_reducible rfl
    | simp only [List.length_modify, List.length_map, List.length_mapIdx]
    | with_reducible refine kept_mk (t := _) ?_ ?_ ?_

theorem State.renumberRec_kept {s0 : State} {s : State} {t : Nat} {key : Bytes} {old : Nat} {new : Nat} (h : Kept s0 s) :
    Kept s0 (State.renumberRec s t key old new) := by
  unfold State.renumberRec
  try dsimp only
  repeat' first
    | with_reducible assumption
    | with_reducible apply State.sealUp_kept
    | with_reducible apply kept_ite
    | split

theorem State.renumberRecs_kept {s0 : State} {s : State} {log : List LogItem} {new : List LogItem} (h : Kept s0 s) :
    Kept s0 (State.renumberRecs s log new) := by
  unfold State.renumberRecs
  try dsimp only
  repeat' first
    | with_reducible assumption
    | with_reducible apply State.renumberRec_kept
    | with_reducible apply kept_foldl
    | (with_reducible intro; with_reducible intros)

theorem State.endResync_kept {s0 : State} {s : State} {r : Resync} {b : Bytes} (h : Kept s0 s) :
    Kept s0 (State.endResync s r b) := by
  unfold State.endResync
  try dsimp only
  repeat' first
    | with_reducible assumption
    | with_reducible apply State.modTenant_kept
    | with_reducible apply State.ringSend_kept
    | with_reducible apply State.watchSets_kept
    | with_reducible apply State.renumberRecs_kept
    | with_reducible apply kept_foldl
    | with_reducible apply kept_ite
    | (with_reducible intro; with_reducible intros)
    | with_reducible rfl
    | simp only [List.length_modify, List.length_map, List.length_mapIdx]
    | with_reducible refine kept_mk (t := _) ?_ ?_ ?_

theorem execResyncData_kept {s0 : State} {port : RingPort} {frame : Bytes} {s : State} (h : Kept s0 s) :
    KeptO s0 (execResyncData port frame s) := by
  unfold execResyncData
  try dsimp only
  repeat' first
    | with_reducible assumption
    | with_reducible apply State.ringIn_kept
    | with_reducible apply State.installRecord_kept
    | with_reducible apply State.endResync_kept
    | with_reducible apply keptO_next
    | with_reducible apply keptO_fault
    | with_reducible apply keptO_ite
    | with_reducible apply kept_ite
    | (with_reducible intro; with_reducible intros)
    | split

theorem State.laneLost_kept {s0 : State} {s : State} {port : RingPort} (h : Kept s0 s) :
    Kept s0 (State.laneLost s port) := by
  unfold State.laneLost
  try dsimp only
  repeat' first
    | with_reducible assumption
    | with_reducible apply State.bump_kept
    | with_reducible apply State.raise_kept
    | with_reducible apply State.sendProbe_kept
    | with_reducible apply kept_ite
    | split
    | with_reducible rfl
    | simp only [List.length_modify, List.length_map, List.length_mapIdx]
    | with_reducible refine kept_mk (t := _) ?_ ?_ ?_

theorem execRingLaneLoss_kept {s0 : State} {port : RingPort} {s : State} (h : Kept s0 s) :
    KeptO s0 (execRingLaneLoss port s) := by
  unfold execRingLaneLoss
  try dsimp only
  repeat' first
    | with_reducible assumption
    | with_reducible apply State.laneLost_kept
    | with_reducible apply keptO_next
    | with_reducible apply keptO_fault
    | with_reducible apply keptO_ite

theorem State.unwrap_kept {s0 : State} {s : State} (h : Kept s0 s) :
    Kept s0 (State.unwrap s) := by
  unfold State.unwrap
  try dsimp only
  repeat' first
    | with_reducible assumption
    | with_reducible apply State.sendProbe_kept
    | with_reducible apply kept_ite
    | (with_reducible intro; with_reducible intros)
    | split
    | with_reducible rfl
    | simp only [List.length_modify, List.length_map, List.length_mapIdx]
    | with_reducible refine kept_mk (t := _) ?_ ?_ ?_

theorem execRingUnwrap_kept {s0 : State} {s : State} (h : Kept s0 s) :
    KeptO s0 (execRingUnwrap s) := by
  unfold execRingUnwrap
  try dsimp only
  repeat' first
    | with_reducible assumption
    | with_reducible apply State.unwrap_kept
    | with_reducible apply keptO_next
    | with_reducible apply keptO_fault
    | with_reducible apply keptO_ite

theorem execRingLaneLock_kept {s0 : State} {port : RingPort} {s : State} (h : Kept s0 s) :
    KeptO s0 (execRingLaneLock port s) := by
  unfold execRingLaneLock
  try dsimp only
  repeat' first
    | with_reducible assumption
    | with_reducible apply State.trainLane_kept
    | with_reducible apply keptO_next
    | with_reducible apply keptO_fault
    | with_reducible apply keptO_ite
    | with_reducible apply kept_ite
    | split
    | with_reducible rfl
    | simp only [List.length_modify, List.length_map, List.length_mapIdx]
    | with_reducible refine kept_mk (t := _) ?_ ?_ ?_

end Sys2Proof.Laws
end

