-- ==== Sys2Proof/Laws/KeptRegRead.lean ====
section
/-! SUPPORT. What every operation of Machine/RegRead.lean keeps. -/
namespace Sys2Proof.Laws
open Sys2Proof Sys2Proof.Machine

theorem State.readCounter_kept {s0 : State} {s : State} {path : Path} {addr : Nat} (h : Kept s0 s) :
    Kept s0 (State.readCounter s path addr).2 := by
  unfold State.readCounter
  try dsimp only
  repeat' first
    | with_reducible assumption
    | with_reducible apply State.clearCounter_kept
    | with_reducible apply State.setLatch_kept

theorem State.readPair_kept {s0 : State} {s : State} {path : Path} {addr : Nat} {value : Nat} {width : Nat} (h : Kept s0 s) :
    Kept s0 (State.readPair s path addr value width).2 := by
  unfold State.readPair
  try dsimp only
  repeat' first
    | with_reducible assumption
    | with_reducible apply State.setLatch_kept

theorem State.readClears_kept {s0 : State} {s : State} {addr : Nat} (h : Kept s0 s) :
    Kept s0 (State.readClears s addr) := by
  unfold State.readClears
  try dsimp only
  repeat' first
    | with_reducible assumption
    | with_reducible apply kept_ite
    | with_reducible rfl
    | simp only [List.length_modify, List.length_map, List.length_mapIdx]
    | with_reducible refine kept_mk (t := _) ?_ ?_ ?_

theorem State.readReg_kept {s0 : State} {s : State} {path : Path} {addr : Nat} (h : Kept s0 s) :
    Kept s0 (State.readReg s path addr).2 := by
  unfold State.readReg
  try dsimp only
  repeat' first
    | with_reducible assumption
    | with_reducible apply State.readCounter_kept
    | with_reducible apply State.readPair_kept
    | with_reducible apply State.readClears_kept
    | with_reducible apply kept_ite
    | split
    | with_reducible rfl
    | simp only [List.length_modify, List.length_map, List.length_mapIdx]
    | with_reducible refine kept_mk (t := _) ?_ ?_ ?_

end Sys2Proof.Laws
end

