-- ==== Sys2Proof/Laws/KeptRegWrite.lean ====
section
/-! SUPPORT. What every operation of Machine/RegWrite.lean keeps. -/
namespace Sys2Proof.Laws
open Sys2Proof Sys2Proof.Machine

theorem State.writeGlb_kept {s0 : State} {s : State} {off : Nat} {v : Nat} (h : Kept s0 s) :
    Kept s0 (State.writeGlb s off v) := by
  unfold State.writeGlb
  try dsimp only
  repeat' first
    | with_reducible assumption
    | split
    | with_reducible rfl
    | simp only [List.length_modify, List.length_map, List.length_mapIdx]
    | with_reducible refine kept_mk (t := _) ?_ ?_ ?_

theorem State.writeCtrl_kept {s0 : State} {s : State} {port : Port} {v : Nat} (h : Kept s0 s) :
    Kept s0 (State.writeCtrl s port v) := by
  unfold State.writeCtrl
  try dsimp only
  repeat' first
    | with_reducible assumption
    | with_reducible apply State.modPort_kept
    | with_reducible apply State.anRestarts_kept
    | with_reducible apply kept_ite
    | (with_reducible intro; with_reducible intros)
    | split
    | with_reducible rfl
    | simp only [List.length_modify, List.length_map, List.length_mapIdx]
    | with_reducible refine kept_mk (t := _) ?_ ?_ ?_

theorem State.writePort_kept {s0 : State} {s : State} {port : Port} {off : Nat} {v : Nat} (h : Kept s0 s) :
    Kept s0 (State.writePort s port off v) := by
  unfold State.writePort
  try dsimp only
  repeat' first
    | with_reducible assumption
    | with_reducible apply State.modPort_kept
    | with_reducible apply State.writeCtrl_kept
    | with_reducible apply kept_ite
    | (with_reducible intro; with_reducible intros)

theorem State.writeSpan_kept {s0 : State} {s : State} {off : Nat} {v : Nat} (h : Kept s0 s) :
    Kept s0 (State.writeSpan s off v) := by
  unfold State.writeSpan
  try dsimp only
  repeat' first
    | with_reducible assumption
    | with_reducible apply kept_ite
    | with_reducible rfl
    | simp only [List.length_modify, List.length_map, List.length_mapIdx]
    | with_reducible refine kept_mk (t := _) ?_ ?_ ?_

theorem State.writeTnt_kept {s0 : State} {s : State} {t : Nat} {off : Nat} {v : Nat} (h : Kept s0 s) :
    Kept s0 (State.writeTnt s t off v) := by
  unfold State.writeTnt
  try dsimp only
  repeat' first
    | with_reducible assumption
    | with_reducible apply State.modTenant_kept
    | with_reducible apply kept_ite
    | (with_reducible intro; with_reducible intros)
    | with_reducible rfl
    | simp only [List.length_modify, List.length_map, List.length_mapIdx]
    | with_reducible refine kept_mk (t := _) ?_ ?_ ?_

theorem State.writeLckTenant_kept {s0 : State} {s : State} {t : Nat} {off : Nat} {v : Nat} (h : Kept s0 s) :
    Kept s0 (State.writeLckTenant s t off v) := by
  unfold State.writeLckTenant
  try dsimp only
  repeat' first
    | with_reducible assumption
    | with_reducible apply State.modTenant_kept
    | with_reducible apply kept_ite
    | (with_reducible intro; with_reducible intros)
    | with_reducible rfl
    | simp only [List.length_modify, List.length_map, List.length_mapIdx]
    | with_reducible refine kept_mk (t := _) ?_ ?_ ?_

theorem State.writePlain_kept {s0 : State} {s : State} {addr v : Nat} (h : Kept s0 s) :
    Kept s0 (s.writePlain addr v) := by
  have hm (x : Media) (off : Nat) : (x.write off v).words = x.words := by
    unfold Media.write
    split <;> rfl
  unfold State.writePlain
  dsimp only
  repeat' first
    | with_reducible assumption
    | with_reducible apply hm
    | with_reducible apply State.writeSpan_kept
    | with_reducible apply State.writeLckTenant_kept
    | with_reducible apply State.writeTnt_kept
    | with_reducible apply State.writeGlb_kept
    | with_reducible apply State.writePort_kept
    | with_reducible apply kept_elim
    | with_reducible apply kept_ite
    | split
    | (intro x)
    | with_reducible rfl
    | with_reducible refine kept_mk (t := _) ?_ ?_ ?_

theorem State.keyedReset_kept {s0 : State} {s : State} {path : Path} {v : Nat} (h : Kept s0 s) :
    Kept s0 (State.keyedReset s path v) := by
  unfold State.keyedReset
  try dsimp only
  repeat' first
    | with_reducible assumption
    | with_reducible apply State.causeReset_kept
    | with_reducible apply kept_ite

theorem State.tenantCtrl_kept {s0 : State} {s : State} {t : Nat} {v : Nat} (h : Kept s0 s) :
    Kept s0 (State.tenantCtrl s t v) := by
  unfold State.tenantCtrl
  try dsimp only
  repeat' first
    | with_reducible assumption
    | with_reducible apply State.stopTenant_kept
    | with_reducible apply State.startTenant_kept
    | with_reducible apply kept_ite

theorem State.writeAction_kept {s0 : State} {s : State} {addr : Nat} {v : Nat} (h : Kept s0 s) :
    Kept s0 (State.writeAction s addr v) := by
  unfold State.writeAction
  try dsimp only
  repeat' first
    | with_reducible assumption
    | with_reducible apply State.setDay_kept
    | with_reducible apply State.eraseGeneration_kept
    | with_reducible apply State.tenantCtrl_kept
    | split

theorem State.writeReg_kept {s0 : State} {s : State} {path : Path} {addr : Nat} {v : Nat} (h : Kept s0 s) :
    Kept s0 (State.writeReg s path addr v) := by
  unfold State.writeReg
  try dsimp only
  repeat' first
    | with_reducible assumption
    | with_reducible apply State.abortUpdate_kept
    | with_reducible apply State.saveSettings_kept
    | with_reducible apply State.cfgGo_kept
    | with_reducible apply State.writePlain_kept
    | with_reducible apply State.keyedReset_kept
    | with_reducible apply State.writeAction_kept
    | with_reducible apply kept_ite

theorem State.readWords_kept {s0 : State} {s : State} {path : Path} {addr n : Nat} (h : Kept s0 s) :
    Kept s0 (s.readWords path addr n).2 := by
  induction n generalizing s addr with
  | zero => exact h
  | succ n ih => exact ih (State.readReg_kept h)

theorem State.writeWords_kept {s0 : State} {s : State} {path : Path} {addr : Nat} {vs : List Nat} (h : Kept s0 s) :
    Kept s0 (s.writeWords path addr vs) := by
  induction vs generalizing s addr with
  | nil => exact h
  | cons v rest ih => exact ih (State.writeReg_kept h)

theorem State.serveMgmtRead_kept {s0 : State} {s : State} {d : Desc} (h : Kept s0 s) :
    Kept s0 (State.serveMgmtRead s d) := by
  unfold State.serveMgmtRead
  try dsimp only
  repeat' first
    | with_reducible assumption
    | with_reducible apply State.answer_kept
    | with_reducible apply State.readWords_kept

theorem execMgmtRead_kept {s0 : State} {id : Nat} {s : State} (h : Kept s0 s) :
    KeptO s0 (execMgmtRead id s) := by
  unfold execMgmtRead
  try dsimp only
  repeat' first
    | with_reducible assumption
    | with_reducible apply State.serve_kept
    | with_reducible apply State.serveMgmtRead_kept
    | with_reducible apply keptO_next
    | with_reducible apply keptO_fault
    | with_reducible apply keptO_ite
    | (with_reducible intro; with_reducible intros)

theorem State.serveMgmtWrite_kept {s0 : State} {s : State} {d : Desc} (h : Kept s0 s) :
    Kept s0 (State.serveMgmtWrite s d) := by
  unfold State.serveMgmtWrite
  try dsimp only
  repeat' first
    | with_reducible assumption
    | with_reducible apply State.finish_kept
    | with_reducible apply State.writeWords_kept

theorem execMgmtWrite_kept {s0 : State} {id : Nat} {s : State} (h : Kept s0 s) :
    KeptO s0 (execMgmtWrite id s) := by
  unfold execMgmtWrite
  try dsimp only
  repeat' first
    | with_reducible assumption
    | with_reducible apply State.serve_kept
    | with_reducible apply State.serveMgmtWrite_kept
    | with_reducible apply keptO_next
    | with_reducible apply keptO_fault
    | with_reducible apply keptO_ite
    | (with_reducible intro; with_reducible intros)

theorem execRegisterWrite_kept {s0 : State} {addr : Nat} {value : Word} {s : State} (h : Kept s0 s) :
    KeptO s0 (execRegisterWrite addr value s) := by
  unfold execRegisterWrite
  try dsimp only
  repeat' first
    | with_reducible assumption
    | with_reducible apply State.writePlain_kept
    | with_reducible apply keptO_next
    | with_reducible apply keptO_fault
    | with_reducible apply keptO_ite

theorem State.shown_kept {s0 : State} {s : State} {path : Path} {v : Nat} (h : Kept s0 s) :
    Kept s0 (State.shown s path v) := by
  unfold State.shown
  try dsimp only
  repeat' first
    | with_reducible assumption
    | split
    | with_reducible rfl
    | simp only [List.length_modify, List.length_map, List.length_mapIdx]
    | with_reducible refine kept_mk (t := _) ?_ ?_ ?_

theorem execCounterLoRead_kept {s0 : State} {path : Path} {addr : Nat} {s : State} (h : Kept s0 s) :
    KeptO s0 (execCounterLoRead path addr s) := by
  unfold execCounterLoRead
  try dsimp only
  repeat' first
    | with_reducible assumption
    | with_reducible apply State.readCounter_kept
    | with_reducible apply State.shown_kept
    | with_reducible apply keptO_next
    | with_reducible apply keptO_fault
    | with_reducible apply keptO_ite
    | with_reducible apply kept_ite

theorem execPairLRead_kept {s0 : State} {path : Path} {addr : Nat} {s : State} (h : Kept s0 s) :
    KeptO s0 (execPairLRead path addr s) := by
  unfold execPairLRead
  try dsimp only
  repeat' first
    | with_reducible assumption
    | with_reducible apply State.readPair_kept
    | with_reducible apply State.shown_kept
    | with_reducible apply keptO_next
    | with_reducible apply keptO_fault
    | with_reducible apply keptO_ite
    | with_reducible apply kept_ite
    | split
    | with_reducible rfl
    | simp only [List.length_modify, List.length_map, List.length_mapIdx]
    | with_reducible refine kept_mk (t := _) ?_ ?_ ?_

end Sys2Proof.Laws
end

