-- ==== Sys2Proof/Laws/KeptSmbus.lean ====
section
/-! SUPPORT. What every operation of Machine/Smbus.lean keeps. -/
namespace Sys2Proof.Laws
open Sys2Proof Sys2Proof.Machine

theorem State.smbRead_kept {s0 : State} {s : State} {addr : Nat} (h : Kept s0 s) : Kept s0 (s.smbRead addr).2 := by
  unfold State.smbRead
  dsimp only
  repeat' first
    | with_reducible assumption
    | with_reducible apply State.readReg_kept
    | split

theorem State.smbWords_kept {s0 : State} {s : State} {addr n : Nat} (h : Kept s0 s) :
    Kept s0 (s.smbWords addr n).2 := by
  induction n generalizing s addr with
  | zero => exact h
  | succ n ih => exact ih (State.smbRead_kept h)

theorem State.smb_kept {s0 : State} {s : State} {pecGood : Bool} {act : State → State} (h : Kept s0 s) (hf : ∀ v0, Kept s0 v0 → Kept s0 (act v0)) :
    Kept s0 (State.smb s pecGood act) := by
  unfold State.smb
  try dsimp only
  repeat' first
    | with_reducible assumption
    | with_reducible apply State.bump_kept
    | with_reducible apply hf
    | with_reducible apply kept_ite
    | with_reducible rfl
    | simp only [List.length_modify, List.length_map, List.length_mapIdx]
    | with_reducible refine kept_mk (t := _) ?_ ?_ ?_

theorem State.addrError_kept {s0 : State} {s : State} (h : Kept s0 s) :
    Kept s0 (State.addrError s) := by
  unfold State.addrError
  try dsimp only
  repeat' first
    | with_reducible assumption
    | with_reducible rfl
    | simp only [List.length_modify, List.length_map, List.length_mapIdx]
    | with_reducible refine kept_mk (t := _) ?_ ?_ ?_

theorem State.smbPoint_kept {s0 : State} {s : State} {data : Bytes} (h : Kept s0 s) :
    Kept s0 (State.smbPoint s data) := by
  unfold State.smbPoint
  try dsimp only
  repeat' first
    | with_reducible assumption
    | with_reducible apply State.addrError_kept
    | with_reducible apply kept_ite
    | with_reducible rfl
    | simp only [List.length_modify, List.length_map, List.length_mapIdx]
    | with_reducible refine kept_mk (t := _) ?_ ?_ ?_

theorem execSmbSetPointer_kept {s0 : State} {data : Bytes} {pecGood : Bool} {s : State} (h : Kept s0 s) :
    KeptO s0 (execSmbSetPointer data pecGood s) := by
  unfold execSmbSetPointer
  try dsimp only
  repeat' first
    | with_reducible assumption
    | with_reducible apply State.smb_kept
    | with_reducible apply State.smbPoint_kept
    | with_reducible apply keptO_next
    | with_reducible apply keptO_fault
    | with_reducible apply keptO_ite
    | (with_reducible intro; with_reducible intros)

theorem State.smbBlock_kept {s0 : State} {s : State} (h : Kept s0 s) :
    Kept s0 (State.smbBlock s) := by
  unfold State.smbBlock
  try dsimp only
  repeat' first
    | with_reducible assumption
    | with_reducible apply State.smbWords_kept
    | with_reducible apply kept_ite
    | with_reducible rfl
    | simp only [List.length_modify, List.length_map, List.length_mapIdx]
    | with_reducible refine kept_mk (t := _) ?_ ?_ ?_

theorem execSmbBlockRead_kept {s0 : State} {pecGood : Bool} {s : State} (h : Kept s0 s) :
    KeptO s0 (execSmbBlockRead pecGood s) := by
  unfold execSmbBlockRead
  try dsimp only
  repeat' first
    | with_reducible assumption
    | with_reducible apply State.smb_kept
    | with_reducible apply State.addrError_kept
    | with_reducible apply State.smbBlock_kept
    | with_reducible apply keptO_next
    | with_reducible apply keptO_fault
    | with_reducible apply keptO_ite
    | with_reducible apply kept_ite
    | (with_reducible intro; with_reducible intros)

theorem State.smbWrite_kept {s0 : State} {s : State} {data : Bytes} (h : Kept s0 s) :
    Kept s0 (State.smbWrite s data) := by
  unfold State.smbWrite
  try dsimp only
  repeat' first
    | with_reducible assumption
    | with_reducible apply State.keyedReset_kept
    | with_reducible apply State.addrError_kept
    | with_reducible apply kept_ite
    | with_reducible rfl
    | simp only [List.length_modify, List.length_map, List.length_mapIdx]
    | with_reducible refine kept_mk (t := _) ?_ ?_ ?_

theorem execSmbWriteWord_kept {s0 : State} {data : Bytes} {pecGood : Bool} {s : State} (h : Kept s0 s) :
    KeptO s0 (execSmbWriteWord data pecGood s) := by
  unfold execSmbWriteWord
  try dsimp only
  repeat' first
    | with_reducible assumption
    | with_reducible apply State.smb_kept
    | with_reducible apply State.smbWrite_kept
    | with_reducible apply keptO_next
    | with_reducible apply keptO_fault
    | with_reducible apply keptO_ite
    | (with_reducible intro; with_reducible intros)

theorem State.smbFlags_kept {s0 : State} {s : State} (h : Kept s0 s) :
    Kept s0 (State.smbFlags s) := by
  unfold State.smbFlags
  try dsimp only
  repeat' first
    | with_reducible assumption
    | with_reducible rfl
    | simp only [List.length_modify, List.length_map, List.length_mapIdx]
    | with_reducible refine kept_mk (t := _) ?_ ?_ ?_

theorem execSmbReadFlags_kept {s0 : State} {pecGood : Bool} {s : State} (h : Kept s0 s) :
    KeptO s0 (execSmbReadFlags pecGood s) := by
  unfold execSmbReadFlags
  try dsimp only
  repeat' first
    | with_reducible assumption
    | with_reducible apply State.smb_kept
    | with_reducible apply State.smbFlags_kept
    | with_reducible apply keptO_next
    | with_reducible apply keptO_fault
    | with_reducible apply keptO_ite
    | (with_reducible intro; with_reducible intros)

theorem execSmbAlertResponse_kept {s0 : State} {s : State} (h : Kept s0 s) :
    KeptO s0 (execSmbAlertResponse s) := by
  unfold execSmbAlertResponse
  try dsimp only
  repeat' first
    | with_reducible assumption
    | with_reducible apply keptO_next
    | with_reducible apply keptO_fault
    | with_reducible apply keptO_ite
    | with_reducible apply kept_ite
    | with_reducible rfl
    | simp only [List.length_modify, List.length_map, List.length_mapIdx]
    | with_reducible refine kept_mk (t := _) ?_ ?_ ?_

end Sys2Proof.Laws
end

