-- ==== Sys2Proof/Laws/State.lean ====
section
/-! SUPPORT. What each update of the state leaves of each field: one lemma per field per update, true by computation. -/
namespace Sys2Proof.Laws
open Sys2Proof Sys2Proof.Machine

variable (s : State)

/-! ### A port changed -/

@[simp] theorem modPort_portA_a (f : PortState → PortState) : (s.modPort .a f).portA = f s.portA := rfl
@[simp] theorem modPort_portB_a (f : PortState → PortState) : (s.modPort .a f).portB = s.portB := rfl
@[simp] theorem modPort_portA_b (f : PortState → PortState) : (s.modPort .b f).portA = s.portA := rfl
@[simp] theorem modPort_portB_b (f : PortState → PortState) : (s.modPort .b f).portB = f s.portB := rfl
@[simp] theorem modPort_port (p : Port) (f : PortState → PortState) : (s.modPort p f).port p = f (s.port p) := by cases p <;> rfl
@[simp] theorem modPort_pending (p : Port) (f : PortState → PortState) : (s.modPort p f).pending = s.pending := by cases p <;> rfl
@[simp] theorem modPort_tick (p : Port) (f : PortState → PortState) : (s.modPort p f).tick = s.tick := by cases p <;> rfl
@[simp] theorem modPort_ident (p : Port) (f : PortState → PortState) : (s.modPort p f).ident = s.ident := by cases p <;> rfl
@[simp] theorem modPort_spaces (p : Port) (f : PortState → PortState) : (s.modPort p f).spaces = s.spaces := by cases p <;> rfl
@[simp] theorem modPort_descs (p : Port) (f : PortState → PortState) : (s.modPort p f).descs = s.descs := by cases p <;> rfl
@[simp] theorem modPort_nextDesc (p : Port) (f : PortState → PortState) : (s.modPort p f).nextDesc = s.nextDesc := by cases p <;> rfl
@[simp] theorem modPort_segs (p : Port) (f : PortState → PortState) : (s.modPort p f).segs = s.segs := by cases p <;> rfl
@[simp] theorem modPort_tenants (p : Port) (f : PortState → PortState) : (s.modPort p f).tenants = s.tenants := by cases p <;> rfl
@[simp] theorem modPort_creating (p : Port) (f : PortState → PortState) : (s.modPort p f).creating = s.creating := by cases p <;> rfl
@[simp] theorem modPort_removing (p : Port) (f : PortState → PortState) : (s.modPort p f).removing = s.removing := by cases p <;> rfl
@[simp] theorem modPort_ledger (p : Port) (f : PortState → PortState) : (s.modPort p f).ledger = s.ledger := by cases p <;> rfl
@[simp] theorem modPort_awl (p : Port) (f : PortState → PortState) : (s.modPort p f).awl = s.awl := by cases p <;> rfl
@[simp] theorem modPort_cinch (p : Port) (f : PortState → PortState) : (s.modPort p f).cinch = s.cinch := by cases p <;> rfl
@[simp] theorem modPort_media (p : Port) (f : PortState → PortState) : (s.modPort p f).media = s.media := by cases p <;> rfl
@[simp] theorem modPort_secure (p : Port) (f : PortState → PortState) : (s.modPort p f).secure = s.secure := by cases p <;> rfl
@[simp] theorem modPort_update (p : Port) (f : PortState → PortState) : (s.modPort p f).update = s.update := by cases p <;> rfl
@[simp] theorem modPort_power (p : Port) (f : PortState → PortState) : (s.modPort p f).power = s.power := by cases p <;> rfl
@[simp] theorem modPort_boot (p : Port) (f : PortState → PortState) : (s.modPort p f).boot = s.boot := by cases p <;> rfl
@[simp] theorem modPort_smbus (p : Port) (f : PortState → PortState) : (s.modPort p f).smbus = s.smbus := by cases p <;> rfl
@[simp] theorem modPort_events (p : Port) (f : PortState → PortState) : (s.modPort p f).events = s.events := by cases p <;> rfl
@[simp] theorem modPort_span (p : Port) (f : PortState → PortState) : (s.modPort p f).span = s.span := by cases p <;> rfl
@[simp] theorem modPort_counters (p : Port) (f : PortState → PortState) : (s.modPort p f).counters = s.counters := by cases p <;> rfl
@[simp] theorem modPort_latches (p : Port) (f : PortState → PortState) : (s.modPort p f).latches = s.latches := by cases p <;> rfl
@[simp] theorem modPort_free (p : Port) (f : PortState → PortState) : (s.modPort p f).free = s.free := by cases p <;> rfl

/-! ### modTenant -/

@[simp] theorem modTenant_pending (t : Nat) (f : Tenant → Tenant) : (s.modTenant t f).pending = s.pending := rfl
@[simp] theorem modTenant_tick (t : Nat) (f : Tenant → Tenant) : (s.modTenant t f).tick = s.tick := rfl
@[simp] theorem modTenant_ident (t : Nat) (f : Tenant → Tenant) : (s.modTenant t f).ident = s.ident := rfl
@[simp] theorem modTenant_portA (t : Nat) (f : Tenant → Tenant) : (s.modTenant t f).portA = s.portA := rfl
@[simp] theorem modTenant_portB (t : Nat) (f : Tenant → Tenant) : (s.modTenant t f).portB = s.portB := rfl
@[simp] theorem modTenant_spaces (t : Nat) (f : Tenant → Tenant) : (s.modTenant t f).spaces = s.spaces := rfl
@[simp] theorem modTenant_descs (t : Nat) (f : Tenant → Tenant) : (s.modTenant t f).descs = s.descs := rfl
@[simp] theorem modTenant_nextDesc (t : Nat) (f : Tenant → Tenant) : (s.modTenant t f).nextDesc = s.nextDesc := rfl
@[simp] theorem modTenant_segs (t : Nat) (f : Tenant → Tenant) : (s.modTenant t f).segs = s.segs := rfl
@[simp] theorem modTenant_tenants (t : Nat) (f : Tenant → Tenant) : (s.modTenant t f).tenants = s.tenants.modify t f := rfl
@[simp] theorem modTenant_creating (t : Nat) (f : Tenant → Tenant) : (s.modTenant t f).creating = s.creating := rfl
@[simp] theorem modTenant_removing (t : Nat) (f : Tenant → Tenant) : (s.modTenant t f).removing = s.removing := rfl
@[simp] theorem modTenant_ledger (t : Nat) (f : Tenant → Tenant) : (s.modTenant t f).ledger = s.ledger := rfl
@[simp] theorem modTenant_awl (t : Nat) (f : Tenant → Tenant) : (s.modTenant t f).awl = s.awl := rfl
@[simp] theorem modTenant_cinch (t : Nat) (f : Tenant → Tenant) : (s.modTenant t f).cinch = s.cinch := rfl
@[simp] theorem modTenant_media (t : Nat) (f : Tenant → Tenant) : (s.modTenant t f).media = s.media := rfl
@[simp] theorem modTenant_secure (t : Nat) (f : Tenant → Tenant) : (s.modTenant t f).secure = s.secure := rfl
@[simp] theorem modTenant_update (t : Nat) (f : Tenant → Tenant) : (s.modTenant t f).update = s.update := rfl
@[simp] theorem modTenant_power (t : Nat) (f : Tenant → Tenant) : (s.modTenant t f).power = s.power := rfl
@[simp] theorem modTenant_boot (t : Nat) (f : Tenant → Tenant) : (s.modTenant t f).boot = s.boot := rfl
@[simp] theorem modTenant_smbus (t : Nat) (f : Tenant → Tenant) : (s.modTenant t f).smbus = s.smbus := rfl
@[simp] theorem modTenant_events (t : Nat) (f : Tenant → Tenant) : (s.modTenant t f).events = s.events := rfl
@[simp] theorem modTenant_span (t : Nat) (f : Tenant → Tenant) : (s.modTenant t f).span = s.span := rfl
@[simp] theorem modTenant_counters (t : Nat) (f : Tenant → Tenant) : (s.modTenant t f).counters = s.counters := rfl
@[simp] theorem modTenant_latches (t : Nat) (f : Tenant → Tenant) : (s.modTenant t f).latches = s.latches := rfl
@[simp] theorem modTenant_free (t : Nat) (f : Tenant → Tenant) : (s.modTenant t f).free = s.free := rfl

/-! ### modDesc -/

@[simp] theorem modDesc_pending (id : Nat) (f : Desc → Desc) : (s.modDesc id f).pending = s.pending := rfl
@[simp] theorem modDesc_tick (id : Nat) (f : Desc → Desc) : (s.modDesc id f).tick = s.tick := rfl
@[simp] theorem modDesc_ident (id : Nat) (f : Desc → Desc) : (s.modDesc id f).ident = s.ident := rfl
@[simp] theorem modDesc_portA (id : Nat) (f : Desc → Desc) : (s.modDesc id f).portA = s.portA := rfl
@[simp] theorem modDesc_portB (id : Nat) (f : Desc → Desc) : (s.modDesc id f).portB = s.portB := rfl
@[simp] theorem modDesc_spaces (id : Nat) (f : Desc → Desc) : (s.modDesc id f).spaces = s.spaces := rfl
@[simp] theorem modDesc_descs (id : Nat) (f : Desc → Desc) : (s.modDesc id f).descs = s.descs.map (fun d => if d.id = id then f d else d) := rfl
@[simp] theorem modDesc_nextDesc (id : Nat) (f : Desc → Desc) : (s.modDesc id f).nextDesc = s.nextDesc := rfl
@[simp] theorem modDesc_segs (id : Nat) (f : Desc → Desc) : (s.modDesc id f).segs = s.segs := rfl
@[simp] theorem modDesc_tenants (id : Nat) (f : Desc → Desc) : (s.modDesc id f).tenants = s.tenants := rfl
@[simp] theorem modDesc_creating (id : Nat) (f : Desc → Desc) : (s.modDesc id f).creating = s.creating := rfl
@[simp] theorem modDesc_removing (id : Nat) (f : Desc → Desc) : (s.modDesc id f).removing = s.removing := rfl
@[simp] theorem modDesc_ledger (id : Nat) (f : Desc → Desc) : (s.modDesc id f).ledger = s.ledger := rfl
@[simp] theorem modDesc_awl (id : Nat) (f : Desc → Desc) : (s.modDesc id f).awl = s.awl := rfl
@[simp] theorem modDesc_cinch (id : Nat) (f : Desc → Desc) : (s.modDesc id f).cinch = s.cinch := rfl
@[simp] theorem modDesc_media (id : Nat) (f : Desc → Desc) : (s.modDesc id f).media = s.media := rfl
@[simp] theorem modDesc_secure (id : Nat) (f : Desc → Desc) : (s.modDesc id f).secure = s.secure := rfl
@[simp] theorem modDesc_update (id : Nat) (f : Desc → Desc) : (s.modDesc id f).update = s.update := rfl
@[simp] theorem modDesc_power (id : Nat) (f : Desc → Desc) : (s.modDesc id f).power = s.power := rfl
@[simp] theorem modDesc_boot (id : Nat) (f : Desc → Desc) : (s.modDesc id f).boot = s.boot := rfl
@[simp] theorem modDesc_smbus (id : Nat) (f : Desc → Desc) : (s.modDesc id f).smbus = s.smbus := rfl
@[simp] theorem modDesc_events (id : Nat) (f : Desc → Desc) : (s.modDesc id f).events = s.events := rfl
@[simp] theorem modDesc_span (id : Nat) (f : Desc → Desc) : (s.modDesc id f).span = s.span := rfl
@[simp] theorem modDesc_counters (id : Nat) (f : Desc → Desc) : (s.modDesc id f).counters = s.counters := rfl
@[simp] theorem modDesc_latches (id : Nat) (f : Desc → Desc) : (s.modDesc id f).latches = s.latches := rfl
@[simp] theorem modDesc_free (id : Nat) (f : Desc → Desc) : (s.modDesc id f).free = s.free := rfl

/-! ### dropDesc -/

@[simp] theorem dropDesc_pending (id : Nat) : (s.dropDesc id).pending = s.pending := rfl
@[simp] theorem dropDesc_tick (id : Nat) : (s.dropDesc id).tick = s.tick := rfl
@[simp] theorem dropDesc_ident (id : Nat) : (s.dropDesc id).ident = s.ident := rfl
@[simp] theorem dropDesc_portA (id : Nat) : (s.dropDesc id).portA = s.portA := rfl
@[simp] theorem dropDesc_portB (id : Nat) : (s.dropDesc id).portB = s.portB := rfl
@[simp] theorem dropDesc_spaces (id : Nat) : (s.dropDesc id).spaces = s.spaces := rfl
@[simp] theorem dropDesc_descs (id : Nat) : (s.dropDesc id).descs = s.descs.filter (fun d => d.id != id) := rfl
@[simp] theorem dropDesc_nextDesc (id : Nat) : (s.dropDesc id).nextDesc = s.nextDesc := rfl
@[simp] theorem dropDesc_segs (id : Nat) : (s.dropDesc id).segs = s.segs := rfl
@[simp] theorem dropDesc_tenants (id : Nat) : (s.dropDesc id).tenants = s.tenants := rfl
@[simp] theorem dropDesc_creating (id : Nat) : (s.dropDesc id).creating = s.creating := rfl
@[simp] theorem dropDesc_removing (id : Nat) : (s.dropDesc id).removing = s.removing := rfl
@[simp] theorem dropDesc_ledger (id : Nat) : (s.dropDesc id).ledger = s.ledger := rfl
@[simp] theorem dropDesc_awl (id : Nat) : (s.dropDesc id).awl = s.awl := rfl
@[simp] theorem dropDesc_cinch (id : Nat) : (s.dropDesc id).cinch = s.cinch := rfl
@[simp] theorem dropDesc_media (id : Nat) : (s.dropDesc id).media = s.media := rfl
@[simp] theorem dropDesc_secure (id : Nat) : (s.dropDesc id).secure = s.secure := rfl
@[simp] theorem dropDesc_update (id : Nat) : (s.dropDesc id).update = s.update := rfl
@[simp] theorem dropDesc_power (id : Nat) : (s.dropDesc id).power = s.power := rfl
@[simp] theorem dropDesc_boot (id : Nat) : (s.dropDesc id).boot = s.boot := rfl
@[simp] theorem dropDesc_smbus (id : Nat) : (s.dropDesc id).smbus = s.smbus := rfl
@[simp] theorem dropDesc_events (id : Nat) : (s.dropDesc id).events = s.events := rfl
@[simp] theorem dropDesc_span (id : Nat) : (s.dropDesc id).span = s.span := rfl
@[simp] theorem dropDesc_counters (id : Nat) : (s.dropDesc id).counters = s.counters := rfl
@[simp] theorem dropDesc_latches (id : Nat) : (s.dropDesc id).latches = s.latches := rfl
@[simp] theorem dropDesc_free (id : Nat) : (s.dropDesc id).free = s.free := rfl

/-! ### setPhase -/

@[simp] theorem setPhase_pending (id : Nat) (ph : Phase) : (s.setPhase id ph).pending = s.pending := rfl
@[simp] theorem setPhase_tick (id : Nat) (ph : Phase) : (s.setPhase id ph).tick = s.tick := rfl
@[simp] theorem setPhase_ident (id : Nat) (ph : Phase) : (s.setPhase id ph).ident = s.ident := rfl
@[simp] theorem setPhase_portA (id : Nat) (ph : Phase) : (s.setPhase id ph).portA = s.portA := rfl
@[simp] theorem setPhase_portB (id : Nat) (ph : Phase) : (s.setPhase id ph).portB = s.portB := rfl
@[simp] theorem setPhase_spaces (id : Nat) (ph : Phase) : (s.setPhase id ph).spaces = s.spaces := rfl
@[simp] theorem setPhase_descs (id : Nat) (ph : Phase) : (s.setPhase id ph).descs = s.descs.map (fun d => if d.id = id then { d with phase := ph } else d) := rfl
@[simp] theorem setPhase_nextDesc (id : Nat) (ph : Phase) : (s.setPhase id ph).nextDesc = s.nextDesc := rfl
@[simp] theorem setPhase_segs (id : Nat) (ph : Phase) : (s.setPhase id ph).segs = s.segs := rfl
@[simp] theorem setPhase_tenants (id : Nat) (ph : Phase) : (s.setPhase id ph).tenants = s.tenants := rfl
@[simp] theorem setPhase_creating (id : Nat) (ph : Phase) : (s.setPhase id ph).creating = s.creating := rfl
@[simp] theorem setPhase_removing (id : Nat) (ph : Phase) : (s.setPhase id ph).removing = s.removing := rfl
@[simp] theorem setPhase_ledger (id : Nat) (ph : Phase) : (s.setPhase id ph).ledger = s.ledger := rfl
@[simp] theorem setPhase_awl (id : Nat) (ph : Phase) : (s.setPhase id ph).awl = s.awl := rfl
@[simp] theorem setPhase_cinch (id : Nat) (ph : Phase) : (s.setPhase id ph).cinch = s.cinch := rfl
@[simp] theorem setPhase_media (id : Nat) (ph : Phase) : (s.setPhase id ph).media = s.media := rfl
@[simp] theorem setPhase_secure (id : Nat) (ph : Phase) : (s.setPhase id ph).secure = s.secure := rfl
@[simp] theorem setPhase_update (id : Nat) (ph : Phase) : (s.setPhase id ph).update = s.update := rfl
@[simp] theorem setPhase_power (id : Nat) (ph : Phase) : (s.setPhase id ph).power = s.power := rfl
@[simp] theorem setPhase_boot (id : Nat) (ph : Phase) : (s.setPhase id ph).boot = s.boot := rfl
@[simp] theorem setPhase_smbus (id : Nat) (ph : Phase) : (s.setPhase id ph).smbus = s.smbus := rfl
@[simp] theorem setPhase_events (id : Nat) (ph : Phase) : (s.setPhase id ph).events = s.events := rfl
@[simp] theorem setPhase_span (id : Nat) (ph : Phase) : (s.setPhase id ph).span = s.span := rfl
@[simp] theorem setPhase_counters (id : Nat) (ph : Phase) : (s.setPhase id ph).counters = s.counters := rfl
@[simp] theorem setPhase_latches (id : Nat) (ph : Phase) : (s.setPhase id ph).latches = s.latches := rfl
@[simp] theorem setPhase_free (id : Nat) (ph : Phase) : (s.setPhase id ph).free = s.free := rfl

/-! ### clearCounter -/

@[simp] theorem clearCounter_pending (a : Nat) : (s.clearCounter a).pending = s.pending := rfl
@[simp] theorem clearCounter_tick (a : Nat) : (s.clearCounter a).tick = s.tick := rfl
@[simp] theorem clearCounter_ident (a : Nat) : (s.clearCounter a).ident = s.ident := rfl
@[simp] theorem clearCounter_portA (a : Nat) : (s.clearCounter a).portA = s.portA := rfl
@[simp] theorem clearCounter_portB (a : Nat) : (s.clearCounter a).portB = s.portB := rfl
@[simp] theorem clearCounter_spaces (a : Nat) : (s.clearCounter a).spaces = s.spaces := rfl
@[simp] theorem clearCounter_descs (a : Nat) : (s.clearCounter a).descs = s.descs := rfl
@[simp] theorem clearCounter_nextDesc (a : Nat) : (s.clearCounter a).nextDesc = s.nextDesc := rfl
@[simp] theorem clearCounter_segs (a : Nat) : (s.clearCounter a).segs = s.segs := rfl
@[simp] theorem clearCounter_tenants (a : Nat) : (s.clearCounter a).tenants = s.tenants := rfl
@[simp] theorem clearCounter_creating (a : Nat) : (s.clearCounter a).creating = s.creating := rfl
@[simp] theorem clearCounter_removing (a : Nat) : (s.clearCounter a).removing = s.removing := rfl
@[simp] theorem clearCounter_ledger (a : Nat) : (s.clearCounter a).ledger = s.ledger := rfl
@[simp] theorem clearCounter_awl (a : Nat) : (s.clearCounter a).awl = s.awl := rfl
@[simp] theorem clearCounter_cinch (a : Nat) : (s.clearCounter a).cinch = s.cinch := rfl
@[simp] theorem clearCounter_media (a : Nat) : (s.clearCounter a).media = s.media := rfl
@[simp] theorem clearCounter_secure (a : Nat) : (s.clearCounter a).secure = s.secure := rfl
@[simp] theorem clearCounter_update (a : Nat) : (s.clearCounter a).update = s.update := rfl
@[simp] theorem clearCounter_power (a : Nat) : (s.clearCounter a).power = s.power := rfl
@[simp] theorem clearCounter_boot (a : Nat) : (s.clearCounter a).boot = s.boot := rfl
@[simp] theorem clearCounter_smbus (a : Nat) : (s.clearCounter a).smbus = s.smbus := rfl
@[simp] theorem clearCounter_events (a : Nat) : (s.clearCounter a).events = s.events := rfl
@[simp] theorem clearCounter_span (a : Nat) : (s.clearCounter a).span = s.span := rfl
@[simp] theorem clearCounter_counters (a : Nat) : (s.clearCounter a).counters = eraseKey a s.counters := rfl
@[simp] theorem clearCounter_latches (a : Nat) : (s.clearCounter a).latches = s.latches := rfl
@[simp] theorem clearCounter_free (a : Nat) : (s.clearCounter a).free = s.free := rfl

/-! ### setLatch -/

@[simp] theorem setLatch_pending (p : Path) (a v : Nat) : (s.setLatch p a v).pending = s.pending := rfl
@[simp] theorem setLatch_tick (p : Path) (a v : Nat) : (s.setLatch p a v).tick = s.tick := rfl
@[simp] theorem setLatch_ident (p : Path) (a v : Nat) : (s.setLatch p a v).ident = s.ident := rfl
@[simp] theorem setLatch_portA (p : Path) (a v : Nat) : (s.setLatch p a v).portA = s.portA := rfl
@[simp] theorem setLatch_portB (p : Path) (a v : Nat) : (s.setLatch p a v).portB = s.portB := rfl
@[simp] theorem setLatch_spaces (p : Path) (a v : Nat) : (s.setLatch p a v).spaces = s.spaces := rfl
@[simp] theorem setLatch_descs (p : Path) (a v : Nat) : (s.setLatch p a v).descs = s.descs := rfl
@[simp] theorem setLatch_nextDesc (p : Path) (a v : Nat) : (s.setLatch p a v).nextDesc = s.nextDesc := rfl
@[simp] theorem setLatch_segs (p : Path) (a v : Nat) : (s.setLatch p a v).segs = s.segs := rfl
@[simp] theorem setLatch_tenants (p : Path) (a v : Nat) : (s.setLatch p a v).tenants = s.tenants := rfl
@[simp] theorem setLatch_creating (p : Path) (a v : Nat) : (s.setLatch p a v).creating = s.creating := rfl
@[simp] theorem setLatch_removing (p : Path) (a v : Nat) : (s.setLatch p a v).removing = s.removing := rfl
@[simp] theorem setLatch_ledger (p : Path) (a v : Nat) : (s.setLatch p a v).ledger = s.ledger := rfl
@[simp] theorem setLatch_awl (p : Path) (a v : Nat) : (s.setLatch p a v).awl = s.awl := rfl
@[simp] theorem setLatch_cinch (p : Path) (a v : Nat) : (s.setLatch p a v).cinch = s.cinch := rfl
@[simp] theorem setLatch_media (p : Path) (a v : Nat) : (s.setLatch p a v).media = s.media := rfl
@[simp] theorem setLatch_secure (p : Path) (a v : Nat) : (s.setLatch p a v).secure = s.secure := rfl
@[simp] theorem setLatch_update (p : Path) (a v : Nat) : (s.setLatch p a v).update = s.update := rfl
@[simp] theorem setLatch_power (p : Path) (a v : Nat) : (s.setLatch p a v).power = s.power := rfl
@[simp] theorem setLatch_boot (p : Path) (a v : Nat) : (s.setLatch p a v).boot = s.boot := rfl
@[simp] theorem setLatch_smbus (p : Path) (a v : Nat) : (s.setLatch p a v).smbus = s.smbus := rfl
@[simp] theorem setLatch_events (p : Path) (a v : Nat) : (s.setLatch p a v).events = s.events := rfl
@[simp] theorem setLatch_span (p : Path) (a v : Nat) : (s.setLatch p a v).span = s.span := rfl
@[simp] theorem setLatch_counters (p : Path) (a v : Nat) : (s.setLatch p a v).counters = s.counters := rfl
@[simp] theorem setLatch_latches (p : Path) (a v : Nat) : (s.setLatch p a v).latches = ((p, a), v) :: s.latches.filter (fun x => x.1 != (p, a)) := rfl
@[simp] theorem setLatch_free (p : Path) (a v : Nat) : (s.setLatch p a v).free = s.free := rfl

/-! ### modSpace -/

@[simp] theorem modSpace_pending (fn sp : Nat) (f : Space → Space) : (s.modSpace fn sp f).pending = s.pending := rfl
@[simp] theorem modSpace_tick (fn sp : Nat) (f : Space → Space) : (s.modSpace fn sp f).tick = s.tick := rfl
@[simp] theorem modSpace_ident (fn sp : Nat) (f : Space → Space) : (s.modSpace fn sp f).ident = s.ident := rfl
@[simp] theorem modSpace_portA (fn sp : Nat) (f : Space → Space) : (s.modSpace fn sp f).portA = s.portA := rfl
@[simp] theorem modSpace_portB (fn sp : Nat) (f : Space → Space) : (s.modSpace fn sp f).portB = s.portB := rfl
@[simp] theorem modSpace_spaces (fn sp : Nat) (f : Space → Space) : (s.modSpace fn sp f).spaces = s.spaces.modify (fnIndex fn) (fun l => l.modify sp f) := rfl
@[simp] theorem modSpace_descs (fn sp : Nat) (f : Space → Space) : (s.modSpace fn sp f).descs = s.descs := rfl
@[simp] theorem modSpace_nextDesc (fn sp : Nat) (f : Space → Space) : (s.modSpace fn sp f).nextDesc = s.nextDesc := rfl
@[simp] theorem modSpace_segs (fn sp : Nat) (f : Space → Space) : (s.modSpace fn sp f).segs = s.segs := rfl
@[simp] theorem modSpace_tenants (fn sp : Nat) (f : Space → Space) : (s.modSpace fn sp f).tenants = s.tenants := rfl
@[simp] theorem modSpace_creating (fn sp : Nat) (f : Space → Space) : (s.modSpace fn sp f).creating = s.creating := rfl
@[simp] theorem modSpace_removing (fn sp : Nat) (f : Space → Space) : (s.modSpace fn sp f).removing = s.removing := rfl
@[simp] theorem modSpace_ledger (fn sp : Nat) (f : Space → Space) : (s.modSpace fn sp f).ledger = s.ledger := rfl
@[simp] theorem modSpace_awl (fn sp : Nat) (f : Space → Space) : (s.modSpace fn sp f).awl = s.awl := rfl
@[simp] theorem modSpace_cinch (fn sp : Nat) (f : Space → Space) : (s.modSpace fn sp f).cinch = s.cinch := rfl
@[simp] theorem modSpace_media (fn sp : Nat) (f : Space → Space) : (s.modSpace fn sp f).media = s.media := rfl
@[simp] theorem modSpace_secure (fn sp : Nat) (f : Space → Space) : (s.modSpace fn sp f).secure = s.secure := rfl
@[simp] theorem modSpace_update (fn sp : Nat) (f : Space → Space) : (s.modSpace fn sp f).update = s.update := rfl
@[simp] theorem modSpace_power (fn sp : Nat) (f : Space → Space) : (s.modSpace fn sp f).power = s.power := rfl
@[simp] theorem modSpace_boot (fn sp : Nat) (f : Space → Space) : (s.modSpace fn sp f).boot = s.boot := rfl
@[simp] theorem modSpace_smbus (fn sp : Nat) (f : Space → Space) : (s.modSpace fn sp f).smbus = s.smbus := rfl
@[simp] theorem modSpace_events (fn sp : Nat) (f : Space → Space) : (s.modSpace fn sp f).events = s.events := rfl
@[simp] theorem modSpace_span (fn sp : Nat) (f : Space → Space) : (s.modSpace fn sp f).span = s.span := rfl
@[simp] theorem modSpace_counters (fn sp : Nat) (f : Space → Space) : (s.modSpace fn sp f).counters = s.counters := rfl
@[simp] theorem modSpace_latches (fn sp : Nat) (f : Space → Space) : (s.modSpace fn sp f).latches = s.latches := rfl
@[simp] theorem modSpace_free (fn sp : Nat) (f : Space → Space) : (s.modSpace fn sp f).free = s.free := rfl

/-! ### restartSpaces -/

@[simp] theorem restartSpaces_pending (fn : Nat) : (s.restartSpaces fn).pending = s.pending := rfl
@[simp] theorem restartSpaces_tick (fn : Nat) : (s.restartSpaces fn).tick = s.tick := rfl
@[simp] theorem restartSpaces_ident (fn : Nat) : (s.restartSpaces fn).ident = s.ident := rfl
@[simp] theorem restartSpaces_portA (fn : Nat) : (s.restartSpaces fn).portA = s.portA := rfl
@[simp] theorem restartSpaces_portB (fn : Nat) : (s.restartSpaces fn).portB = s.portB := rfl
@[simp] theorem restartSpaces_spaces (fn : Nat) : (s.restartSpaces fn).spaces = s.spaces.modify (fnIndex fn) (fun _ => List.replicate 8 Space.fresh) := rfl
@[simp] theorem restartSpaces_descs (fn : Nat) : (s.restartSpaces fn).descs = s.descs := rfl
@[simp] theorem restartSpaces_nextDesc (fn : Nat) : (s.restartSpaces fn).nextDesc = s.nextDesc := rfl
@[simp] theorem restartSpaces_segs (fn : Nat) : (s.restartSpaces fn).segs = s.segs := rfl
@[simp] theorem restartSpaces_tenants (fn : Nat) : (s.restartSpaces fn).tenants = s.tenants := rfl
@[simp] theorem restartSpaces_creating (fn : Nat) : (s.restartSpaces fn).creating = s.creating := rfl
@[simp] theorem restartSpaces_removing (fn : Nat) : (s.restartSpaces fn).removing = s.removing := rfl
@[simp] theorem restartSpaces_ledger (fn : Nat) : (s.restartSpaces fn).ledger = s.ledger := rfl
@[simp] theorem restartSpaces_awl (fn : Nat) : (s.restartSpaces fn).awl = s.awl := rfl
@[simp] theorem restartSpaces_cinch (fn : Nat) : (s.restartSpaces fn).cinch = s.cinch := rfl
@[simp] theorem restartSpaces_media (fn : Nat) : (s.restartSpaces fn).media = s.media := rfl
@[simp] theorem restartSpaces_secure (fn : Nat) : (s.restartSpaces fn).secure = s.secure := rfl
@[simp] theorem restartSpaces_update (fn : Nat) : (s.restartSpaces fn).update = s.update := rfl
@[simp] theorem restartSpaces_power (fn : Nat) : (s.restartSpaces fn).power = s.power := rfl
@[simp] theorem restartSpaces_boot (fn : Nat) : (s.restartSpaces fn).boot = s.boot := rfl
@[simp] theorem restartSpaces_smbus (fn : Nat) : (s.restartSpaces fn).smbus = s.smbus := rfl
@[simp] theorem restartSpaces_events (fn : Nat) : (s.restartSpaces fn).events = s.events := rfl
@[simp] theorem restartSpaces_span (fn : Nat) : (s.restartSpaces fn).span = s.span := rfl
@[simp] theorem restartSpaces_counters (fn : Nat) : (s.restartSpaces fn).counters = s.counters := rfl
@[simp] theorem restartSpaces_latches (fn : Nat) : (s.restartSpaces fn).latches = s.latches := rfl
@[simp] theorem restartSpaces_free (fn : Nat) : (s.restartSpaces fn).free = s.free := rfl

/-! ### modChan -/

@[simp] theorem modChan_pending (ch : Nat) (f : Channel → Channel) : (s.modChan ch f).pending = s.pending := rfl
@[simp] theorem modChan_tick (ch : Nat) (f : Channel → Channel) : (s.modChan ch f).tick = s.tick := rfl
@[simp] theorem modChan_ident (ch : Nat) (f : Channel → Channel) : (s.modChan ch f).ident = s.ident := rfl
@[simp] theorem modChan_portA (ch : Nat) (f : Channel → Channel) : (s.modChan ch f).portA = s.portA := rfl
@[simp] theorem modChan_portB (ch : Nat) (f : Channel → Channel) : (s.modChan ch f).portB = s.portB := rfl
@[simp] theorem modChan_spaces (ch : Nat) (f : Channel → Channel) : (s.modChan ch f).spaces = s.spaces := rfl
@[simp] theorem modChan_descs (ch : Nat) (f : Channel → Channel) : (s.modChan ch f).descs = s.descs := rfl
@[simp] theorem modChan_nextDesc (ch : Nat) (f : Channel → Channel) : (s.modChan ch f).nextDesc = s.nextDesc := rfl
@[simp] theorem modChan_segs (ch : Nat) (f : Channel → Channel) : (s.modChan ch f).segs = s.segs := rfl
@[simp] theorem modChan_tenants (ch : Nat) (f : Channel → Channel) : (s.modChan ch f).tenants = s.tenants := rfl
@[simp] theorem modChan_creating (ch : Nat) (f : Channel → Channel) : (s.modChan ch f).creating = s.creating := rfl
@[simp] theorem modChan_removing (ch : Nat) (f : Channel → Channel) : (s.modChan ch f).removing = s.removing := rfl
@[simp] theorem modChan_ledger (ch : Nat) (f : Channel → Channel) : (s.modChan ch f).ledger = s.ledger := rfl
@[simp] theorem modChan_awl (ch : Nat) (f : Channel → Channel) : (s.modChan ch f).awl = s.awl := rfl
@[simp] theorem modChan_cinch (ch : Nat) (f : Channel → Channel) : (s.modChan ch f).cinch = { s.cinch with chans := s.cinch.chans.modify ch f } := rfl
@[simp] theorem modChan_media (ch : Nat) (f : Channel → Channel) : (s.modChan ch f).media = s.media := rfl
@[simp] theorem modChan_secure (ch : Nat) (f : Channel → Channel) : (s.modChan ch f).secure = s.secure := rfl
@[simp] theorem modChan_update (ch : Nat) (f : Channel → Channel) : (s.modChan ch f).update = s.update := rfl
@[simp] theorem modChan_power (ch : Nat) (f : Channel → Channel) : (s.modChan ch f).power = s.power := rfl
@[simp] theorem modChan_boot (ch : Nat) (f : Channel → Channel) : (s.modChan ch f).boot = s.boot := rfl
@[simp] theorem modChan_smbus (ch : Nat) (f : Channel → Channel) : (s.modChan ch f).smbus = s.smbus := rfl
@[simp] theorem modChan_events (ch : Nat) (f : Channel → Channel) : (s.modChan ch f).events = s.events := rfl
@[simp] theorem modChan_span (ch : Nat) (f : Channel → Channel) : (s.modChan ch f).span = s.span := rfl
@[simp] theorem modChan_counters (ch : Nat) (f : Channel → Channel) : (s.modChan ch f).counters = s.counters := rfl
@[simp] theorem modChan_latches (ch : Nat) (f : Channel → Channel) : (s.modChan ch f).latches = s.latches := rfl
@[simp] theorem modChan_free (ch : Nat) (f : Channel → Channel) : (s.modChan ch f).free = s.free := rfl

/-! ### modSlot -/

@[simp] theorem modSlot_pending (n : Nat) (f : PatSlot → PatSlot) : (s.modSlot n f).pending = s.pending := rfl
@[simp] theorem modSlot_tick (n : Nat) (f : PatSlot → PatSlot) : (s.modSlot n f).tick = s.tick := rfl
@[simp] theorem modSlot_ident (n : Nat) (f : PatSlot → PatSlot) : (s.modSlot n f).ident = s.ident := rfl
@[simp] theorem modSlot_portA (n : Nat) (f : PatSlot → PatSlot) : (s.modSlot n f).portA = s.portA := rfl
@[simp] theorem modSlot_portB (n : Nat) (f : PatSlot → PatSlot) : (s.modSlot n f).portB = s.portB := rfl
@[simp] theorem modSlot_spaces (n : Nat) (f : PatSlot → PatSlot) : (s.modSlot n f).spaces = s.spaces := rfl
@[simp] theorem modSlot_descs (n : Nat) (f : PatSlot → PatSlot) : (s.modSlot n f).descs = s.descs := rfl
@[simp] theorem modSlot_nextDesc (n : Nat) (f : PatSlot → PatSlot) : (s.modSlot n f).nextDesc = s.nextDesc := rfl
@[simp] theorem modSlot_segs (n : Nat) (f : PatSlot → PatSlot) : (s.modSlot n f).segs = s.segs := rfl
@[simp] theorem modSlot_tenants (n : Nat) (f : PatSlot → PatSlot) : (s.modSlot n f).tenants = s.tenants := rfl
@[simp] theorem modSlot_creating (n : Nat) (f : PatSlot → PatSlot) : (s.modSlot n f).creating = s.creating := rfl
@[simp] theorem modSlot_removing (n : Nat) (f : PatSlot → PatSlot) : (s.modSlot n f).removing = s.removing := rfl
@[simp] theorem modSlot_ledger (n : Nat) (f : PatSlot → PatSlot) : (s.modSlot n f).ledger = s.ledger := rfl
@[simp] theorem modSlot_awl (n : Nat) (f : PatSlot → PatSlot) : (s.modSlot n f).awl = { s.awl with slots := s.awl.slots.modify n f } := rfl
@[simp] theorem modSlot_cinch (n : Nat) (f : PatSlot → PatSlot) : (s.modSlot n f).cinch = s.cinch := rfl
@[simp] theorem modSlot_media (n : Nat) (f : PatSlot → PatSlot) : (s.modSlot n f).media = s.media := rfl
@[simp] theorem modSlot_secure (n : Nat) (f : PatSlot → PatSlot) : (s.modSlot n f).secure = s.secure := rfl
@[simp] theorem modSlot_update (n : Nat) (f : PatSlot → PatSlot) : (s.modSlot n f).update = s.update := rfl
@[simp] theorem modSlot_power (n : Nat) (f : PatSlot → PatSlot) : (s.modSlot n f).power = s.power := rfl
@[simp] theorem modSlot_boot (n : Nat) (f : PatSlot → PatSlot) : (s.modSlot n f).boot = s.boot := rfl
@[simp] theorem modSlot_smbus (n : Nat) (f : PatSlot → PatSlot) : (s.modSlot n f).smbus = s.smbus := rfl
@[simp] theorem modSlot_events (n : Nat) (f : PatSlot → PatSlot) : (s.modSlot n f).events = s.events := rfl
@[simp] theorem modSlot_span (n : Nat) (f : PatSlot → PatSlot) : (s.modSlot n f).span = s.span := rfl
@[simp] theorem modSlot_counters (n : Nat) (f : PatSlot → PatSlot) : (s.modSlot n f).counters = s.counters := rfl
@[simp] theorem modSlot_latches (n : Nat) (f : PatSlot → PatSlot) : (s.modSlot n f).latches = s.latches := rfl
@[simp] theorem modSlot_free (n : Nat) (f : PatSlot → PatSlot) : (s.modSlot n f).free = s.free := rfl

/-! ### modScan -/

@[simp] theorem modScan_pending (id : Nat) (f : Scan → Scan) : (s.modScan id f).pending = s.pending := rfl
@[simp] theorem modScan_tick (id : Nat) (f : Scan → Scan) : (s.modScan id f).tick = s.tick := rfl
@[simp] theorem modScan_ident (id : Nat) (f : Scan → Scan) : (s.modScan id f).ident = s.ident := rfl
@[simp] theorem modScan_portA (id : Nat) (f : Scan → Scan) : (s.modScan id f).portA = s.portA := rfl
@[simp] theorem modScan_portB (id : Nat) (f : Scan → Scan) : (s.modScan id f).portB = s.portB := rfl
@[simp] theorem modScan_spaces (id : Nat) (f : Scan → Scan) : (s.modScan id f).spaces = s.spaces := rfl
@[simp] theorem modScan_descs (id : Nat) (f : Scan → Scan) : (s.modScan id f).descs = s.descs := rfl
@[simp] theorem modScan_nextDesc (id : Nat) (f : Scan → Scan) : (s.modScan id f).nextDesc = s.nextDesc := rfl
@[simp] theorem modScan_segs (id : Nat) (f : Scan → Scan) : (s.modScan id f).segs = s.segs := rfl
@[simp] theorem modScan_tenants (id : Nat) (f : Scan → Scan) : (s.modScan id f).tenants = s.tenants := rfl
@[simp] theorem modScan_creating (id : Nat) (f : Scan → Scan) : (s.modScan id f).creating = s.creating := rfl
@[simp] theorem modScan_removing (id : Nat) (f : Scan → Scan) : (s.modScan id f).removing = s.removing := rfl
@[simp] theorem modScan_ledger (id : Nat) (f : Scan → Scan) : (s.modScan id f).ledger = s.ledger := rfl
@[simp] theorem modScan_awl (id : Nat) (f : Scan → Scan) : (s.modScan id f).awl = { s.awl with scans := s.awl.scans.map (fun c => if c.desc = id then f c else c) } := rfl
@[simp] theorem modScan_cinch (id : Nat) (f : Scan → Scan) : (s.modScan id f).cinch = s.cinch := rfl
@[simp] theorem modScan_media (id : Nat) (f : Scan → Scan) : (s.modScan id f).media = s.media := rfl
@[simp] theorem modScan_secure (id : Nat) (f : Scan → Scan) : (s.modScan id f).secure = s.secure := rfl
@[simp] theorem modScan_update (id : Nat) (f : Scan → Scan) : (s.modScan id f).update = s.update := rfl
@[simp] theorem modScan_power (id : Nat) (f : Scan → Scan) : (s.modScan id f).power = s.power := rfl
@[simp] theorem modScan_boot (id : Nat) (f : Scan → Scan) : (s.modScan id f).boot = s.boot := rfl
@[simp] theorem modScan_smbus (id : Nat) (f : Scan → Scan) : (s.modScan id f).smbus = s.smbus := rfl
@[simp] theorem modScan_events (id : Nat) (f : Scan → Scan) : (s.modScan id f).events = s.events := rfl
@[simp] theorem modScan_span (id : Nat) (f : Scan → Scan) : (s.modScan id f).span = s.span := rfl
@[simp] theorem modScan_counters (id : Nat) (f : Scan → Scan) : (s.modScan id f).counters = s.counters := rfl
@[simp] theorem modScan_latches (id : Nat) (f : Scan → Scan) : (s.modScan id f).latches = s.latches := rfl
@[simp] theorem modScan_free (id : Nat) (f : Scan → Scan) : (s.modScan id f).free = s.free := rfl

/-! ### orderSystem -/

@[simp] theorem orderSystem_pending (e : BEntry) : (s.orderSystem e).pending = s.pending := rfl
@[simp] theorem orderSystem_tick (e : BEntry) : (s.orderSystem e).tick = s.tick := rfl
@[simp] theorem orderSystem_ident (e : BEntry) : (s.orderSystem e).ident = s.ident := rfl
@[simp] theorem orderSystem_portA (e : BEntry) : (s.orderSystem e).portA = s.portA := rfl
@[simp] theorem orderSystem_portB (e : BEntry) : (s.orderSystem e).portB = s.portB := rfl
@[simp] theorem orderSystem_spaces (e : BEntry) : (s.orderSystem e).spaces = s.spaces := rfl
@[simp] theorem orderSystem_descs (e : BEntry) : (s.orderSystem e).descs = s.descs := rfl
@[simp] theorem orderSystem_nextDesc (e : BEntry) : (s.orderSystem e).nextDesc = s.nextDesc := rfl
@[simp] theorem orderSystem_segs (e : BEntry) : (s.orderSystem e).segs = s.segs := rfl
@[simp] theorem orderSystem_tenants (e : BEntry) : (s.orderSystem e).tenants = s.tenants := rfl
@[simp] theorem orderSystem_creating (e : BEntry) : (s.orderSystem e).creating = s.creating := rfl
@[simp] theorem orderSystem_removing (e : BEntry) : (s.orderSystem e).removing = s.removing := rfl
@[simp] theorem orderSystem_ledger (e : BEntry) : (s.orderSystem e).ledger = s.ledger := rfl
@[simp] theorem orderSystem_awl (e : BEntry) : (s.orderSystem e).awl = s.awl := rfl
@[simp] theorem orderSystem_cinch (e : BEntry) : (s.orderSystem e).cinch = s.cinch := rfl
@[simp] theorem orderSystem_media (e : BEntry) : (s.orderSystem e).media = s.media := rfl
@[simp] theorem orderSystem_secure (e : BEntry) : (s.orderSystem e).secure = s.secure := rfl
@[simp] theorem orderSystem_update (e : BEntry) : (s.orderSystem e).update = s.update := rfl
@[simp] theorem orderSystem_power (e : BEntry) : (s.orderSystem e).power = s.power := rfl
@[simp] theorem orderSystem_boot (e : BEntry) : (s.orderSystem e).boot = s.boot := rfl
@[simp] theorem orderSystem_smbus (e : BEntry) : (s.orderSystem e).smbus = s.smbus := rfl
@[simp] theorem orderSystem_events (e : BEntry) : (s.orderSystem e).events = s.events := rfl
@[simp] theorem orderSystem_span (e : BEntry) : (s.orderSystem e).span = { s.span with system := s.span.system ++ [e] } := rfl
@[simp] theorem orderSystem_counters (e : BEntry) : (s.orderSystem e).counters = s.counters := rfl
@[simp] theorem orderSystem_latches (e : BEntry) : (s.orderSystem e).latches = s.latches := rfl
@[simp] theorem orderSystem_free (e : BEntry) : (s.orderSystem e).free = s.free := rfl

/-! ### ringSend -/

@[simp] theorem ringSend_pending (type target : Nat) (body : Bytes) : (s.ringSend type target body).pending = s.pending := rfl
@[simp] theorem ringSend_tick (type target : Nat) (body : Bytes) : (s.ringSend type target body).tick = s.tick := rfl
@[simp] theorem ringSend_ident (type target : Nat) (body : Bytes) : (s.ringSend type target body).ident = s.ident := rfl
@[simp] theorem ringSend_portA (type target : Nat) (body : Bytes) : (s.ringSend type target body).portA = s.portA := rfl
@[simp] theorem ringSend_portB (type target : Nat) (body : Bytes) : (s.ringSend type target body).portB = s.portB := rfl
@[simp] theorem ringSend_spaces (type target : Nat) (body : Bytes) : (s.ringSend type target body).spaces = s.spaces := rfl
@[simp] theorem ringSend_descs (type target : Nat) (body : Bytes) : (s.ringSend type target body).descs = s.descs := rfl
@[simp] theorem ringSend_nextDesc (type target : Nat) (body : Bytes) : (s.ringSend type target body).nextDesc = s.nextDesc := rfl
@[simp] theorem ringSend_segs (type target : Nat) (body : Bytes) : (s.ringSend type target body).segs = s.segs := rfl
@[simp] theorem ringSend_tenants (type target : Nat) (body : Bytes) : (s.ringSend type target body).tenants = s.tenants := rfl
@[simp] theorem ringSend_creating (type target : Nat) (body : Bytes) : (s.ringSend type target body).creating = s.creating := rfl
@[simp] theorem ringSend_removing (type target : Nat) (body : Bytes) : (s.ringSend type target body).removing = s.removing := rfl
@[simp] theorem ringSend_ledger (type target : Nat) (body : Bytes) : (s.ringSend type target body).ledger = s.ledger := rfl
@[simp] theorem ringSend_awl (type target : Nat) (body : Bytes) : (s.ringSend type target body).awl = s.awl := rfl
@[simp] theorem ringSend_cinch (type target : Nat) (body : Bytes) : (s.ringSend type target body).cinch = s.cinch := rfl
@[simp] theorem ringSend_media (type target : Nat) (body : Bytes) : (s.ringSend type target body).media = s.media := rfl
@[simp] theorem ringSend_secure (type target : Nat) (body : Bytes) : (s.ringSend type target body).secure = s.secure := rfl
@[simp] theorem ringSend_update (type target : Nat) (body : Bytes) : (s.ringSend type target body).update = s.update := rfl
@[simp] theorem ringSend_power (type target : Nat) (body : Bytes) : (s.ringSend type target body).power = s.power := rfl
@[simp] theorem ringSend_boot (type target : Nat) (body : Bytes) : (s.ringSend type target body).boot = s.boot := rfl
@[simp] theorem ringSend_smbus (type target : Nat) (body : Bytes) : (s.ringSend type target body).smbus = s.smbus := rfl
@[simp] theorem ringSend_events (type target : Nat) (body : Bytes) : (s.ringSend type target body).events = s.events := rfl
@[simp] theorem ringSend_span (type target : Nat) (body : Bytes) : (s.ringSend type target body).span = s.span.emit (primaryType type) { type := type, flags := 0, source := s.span.me, target := target, body := body } := rfl
@[simp] theorem ringSend_counters (type target : Nat) (body : Bytes) : (s.ringSend type target body).counters = s.counters := rfl
@[simp] theorem ringSend_latches (type target : Nat) (body : Bytes) : (s.ringSend type target body).latches = s.latches := rfl
@[simp] theorem ringSend_free (type target : Nat) (body : Bytes) : (s.ringSend type target body).free = s.free := rfl

/-! ### putWord -/

@[simp] theorem putWord_pending (k : Nat) (c : Cell) : (s.putWord k c).pending = s.pending := rfl
@[simp] theorem putWord_tick (k : Nat) (c : Cell) : (s.putWord k c).tick = s.tick := rfl
@[simp] theorem putWord_ident (k : Nat) (c : Cell) : (s.putWord k c).ident = s.ident := rfl
@[simp] theorem putWord_portA (k : Nat) (c : Cell) : (s.putWord k c).portA = s.portA := rfl
@[simp] theorem putWord_portB (k : Nat) (c : Cell) : (s.putWord k c).portB = s.portB := rfl
@[simp] theorem putWord_spaces (k : Nat) (c : Cell) : (s.putWord k c).spaces = s.spaces := rfl
@[simp] theorem putWord_descs (k : Nat) (c : Cell) : (s.putWord k c).descs = s.descs := rfl
@[simp] theorem putWord_nextDesc (k : Nat) (c : Cell) : (s.putWord k c).nextDesc = s.nextDesc := rfl
@[simp] theorem putWord_segs (k : Nat) (c : Cell) : (s.putWord k c).segs = s.segs := rfl
@[simp] theorem putWord_tenants (k : Nat) (c : Cell) : (s.putWord k c).tenants = s.tenants := rfl
@[simp] theorem putWord_creating (k : Nat) (c : Cell) : (s.putWord k c).creating = s.creating := rfl
@[simp] theorem putWord_removing (k : Nat) (c : Cell) : (s.putWord k c).removing = s.removing := rfl
@[simp] theorem putWord_ledger (k : Nat) (c : Cell) : (s.putWord k c).ledger = s.ledger := rfl
@[simp] theorem putWord_awl (k : Nat) (c : Cell) : (s.putWord k c).awl = s.awl := rfl
@[simp] theorem putWord_cinch (k : Nat) (c : Cell) : (s.putWord k c).cinch = s.cinch := rfl
@[simp] theorem putWord_media (k : Nat) (c : Cell) : (s.putWord k c).media = { s.media with words := writeWord s.media.words k c } := rfl
@[simp] theorem putWord_secure (k : Nat) (c : Cell) : (s.putWord k c).secure = s.secure := rfl
@[simp] theorem putWord_update (k : Nat) (c : Cell) : (s.putWord k c).update = s.update := rfl
@[simp] theorem putWord_power (k : Nat) (c : Cell) : (s.putWord k c).power = s.power := rfl
@[simp] theorem putWord_boot (k : Nat) (c : Cell) : (s.putWord k c).boot = s.boot := rfl
@[simp] theorem putWord_smbus (k : Nat) (c : Cell) : (s.putWord k c).smbus = s.smbus := rfl
@[simp] theorem putWord_events (k : Nat) (c : Cell) : (s.putWord k c).events = s.events := rfl
@[simp] theorem putWord_span (k : Nat) (c : Cell) : (s.putWord k c).span = s.span := rfl
@[simp] theorem putWord_counters (k : Nat) (c : Cell) : (s.putWord k c).counters = s.counters := rfl
@[simp] theorem putWord_latches (k : Nat) (c : Cell) : (s.putWord k c).latches = s.latches := rfl
@[simp] theorem putWord_free (k : Nat) (c : Cell) : (s.putWord k c).free = s.free := rfl

/-! ### A counter raised -/

@[simp] theorem bumpBy_pending (a n : Nat) : (s.bumpBy a n).pending = s.pending := by unfold State.bumpBy; dsimp only; split <;> rfl
@[simp] theorem bumpBy_tick (a n : Nat) : (s.bumpBy a n).tick = s.tick := by unfold State.bumpBy; dsimp only; split <;> rfl
@[simp] theorem bumpBy_ident (a n : Nat) : (s.bumpBy a n).ident = s.ident := by unfold State.bumpBy; dsimp only; split <;> rfl
@[simp] theorem bumpBy_portA (a n : Nat) : (s.bumpBy a n).portA = s.portA := by unfold State.bumpBy; dsimp only; split <;> rfl
@[simp] theorem bumpBy_portB (a n : Nat) : (s.bumpBy a n).portB = s.portB := by unfold State.bumpBy; dsimp only; split <;> rfl
@[simp] theorem bumpBy_spaces (a n : Nat) : (s.bumpBy a n).spaces = s.spaces := by unfold State.bumpBy; dsimp only; split <;> rfl
@[simp] theorem bumpBy_descs (a n : Nat) : (s.bumpBy a n).descs = s.descs := by unfold State.bumpBy; dsimp only; split <;> rfl
@[simp] theorem bumpBy_nextDesc (a n : Nat) : (s.bumpBy a n).nextDesc = s.nextDesc := by unfold State.bumpBy; dsimp only; split <;> rfl
@[simp] theorem bumpBy_segs (a n : Nat) : (s.bumpBy a n).segs = s.segs := by unfold State.bumpBy; dsimp only; split <;> rfl
@[simp] theorem bumpBy_tenants (a n : Nat) : (s.bumpBy a n).tenants = s.tenants := by unfold State.bumpBy; dsimp only; split <;> rfl
@[simp] theorem bumpBy_creating (a n : Nat) : (s.bumpBy a n).creating = s.creating := by unfold State.bumpBy; dsimp only; split <;> rfl
@[simp] theorem bumpBy_removing (a n : Nat) : (s.bumpBy a n).removing = s.removing := by unfold State.bumpBy; dsimp only; split <;> rfl
@[simp] theorem bumpBy_ledger (a n : Nat) : (s.bumpBy a n).ledger = s.ledger := by unfold State.bumpBy; dsimp only; split <;> rfl
@[simp] theorem bumpBy_awl (a n : Nat) : (s.bumpBy a n).awl = s.awl := by unfold State.bumpBy; dsimp only; split <;> rfl
@[simp] theorem bumpBy_cinch (a n : Nat) : (s.bumpBy a n).cinch = s.cinch := by unfold State.bumpBy; dsimp only; split <;> rfl
@[simp] theorem bumpBy_media (a n : Nat) : (s.bumpBy a n).media = s.media := by unfold State.bumpBy; dsimp only; split <;> rfl
@[simp] theorem bumpBy_secure (a n : Nat) : (s.bumpBy a n).secure = s.secure := by unfold State.bumpBy; dsimp only; split <;> rfl
@[simp] theorem bumpBy_update (a n : Nat) : (s.bumpBy a n).update = s.update := by unfold State.bumpBy; dsimp only; split <;> rfl
@[simp] theorem bumpBy_power (a n : Nat) : (s.bumpBy a n).power = s.power := by unfold State.bumpBy; dsimp only; split <;> rfl
@[simp] theorem bumpBy_boot (a n : Nat) : (s.bumpBy a n).boot = s.boot := by unfold State.bumpBy; dsimp only; split <;> rfl
@[simp] theorem bumpBy_smbus (a n : Nat) : (s.bumpBy a n).smbus = s.smbus := by unfold State.bumpBy; dsimp only; split <;> rfl
@[simp] theorem bumpBy_events (a n : Nat) : (s.bumpBy a n).events = s.events := by unfold State.bumpBy; dsimp only; split <;> rfl
@[simp] theorem bumpBy_span (a n : Nat) : (s.bumpBy a n).span = s.span := by unfold State.bumpBy; dsimp only; split <;> rfl
@[simp] theorem bumpBy_latches (a n : Nat) : (s.bumpBy a n).latches = s.latches := by unfold State.bumpBy; dsimp only; split <;> rfl
@[simp] theorem bumpBy_free (a n : Nat) : (s.bumpBy a n).free = s.free := by unfold State.bumpBy; dsimp only; split <;> rfl
@[simp] theorem bump_pending (a : Nat) : (s.bump a).pending = s.pending := bumpBy_pending s _ _
@[simp] theorem bump_tick (a : Nat) : (s.bump a).tick = s.tick := bumpBy_tick s _ _
@[simp] theorem bump_ident (a : Nat) : (s.bump a).ident = s.ident := bumpBy_ident s _ _
@[simp] theorem bump_portA (a : Nat) : (s.bump a).portA = s.portA := bumpBy_portA s _ _
@[simp] theorem bump_portB (a : Nat) : (s.bump a).portB = s.portB := bumpBy_portB s _ _
@[simp] theorem bump_spaces (a : Nat) : (s.bump a).spaces = s.spaces := bumpBy_spaces s _ _
@[simp] theorem bump_descs (a : Nat) : (s.bump a).descs = s.descs := bumpBy_descs s _ _
@[simp] theorem bump_nextDesc (a : Nat) : (s.bump a).nextDesc = s.nextDesc := bumpBy_nextDesc s _ _
@[simp] theorem bump_segs (a : Nat) : (s.bump a).segs = s.segs := bumpBy_segs s _ _
@[simp] theorem bump_tenants (a : Nat) : (s.bump a).tenants = s.tenants := bumpBy_tenants s _ _
@[simp] theorem bump_creating (a : Nat) : (s.bump a).creating = s.creating := bumpBy_creating s _ _
@[simp] theorem bump_removing (a : Nat) : (s.bump a).removing = s.removing := bumpBy_removing s _ _
@[simp] theorem bump_ledger (a : Nat) : (s.bump a).ledger = s.ledger := bumpBy_ledger s _ _
@[simp] theorem bump_awl (a : Nat) : (s.bump a).awl = s.awl := bumpBy_awl s _ _
@[simp] theorem bump_cinch (a : Nat) : (s.bump a).cinch = s.cinch := bumpBy_cinch s _ _
@[simp] theorem bump_media (a : Nat) : (s.bump a).media = s.media := bumpBy_media s _ _
@[simp] theorem bump_secure (a : Nat) : (s.bump a).secure = s.secure := bumpBy_secure s _ _
@[simp] theorem bump_update (a : Nat) : (s.bump a).update = s.update := bumpBy_update s _ _
@[simp] theorem bump_power (a : Nat) : (s.bump a).power = s.power := bumpBy_power s _ _
@[simp] theorem bump_boot (a : Nat) : (s.bump a).boot = s.boot := bumpBy_boot s _ _
@[simp] theorem bump_smbus (a : Nat) : (s.bump a).smbus = s.smbus := bumpBy_smbus s _ _
@[simp] theorem bump_events (a : Nat) : (s.bump a).events = s.events := bumpBy_events s _ _
@[simp] theorem bump_span (a : Nat) : (s.bump a).span = s.span := bumpBy_span s _ _
@[simp] theorem bump_latches (a : Nat) : (s.bump a).latches = s.latches := bumpBy_latches s _ _
@[simp] theorem bump_free (a : Nat) : (s.bump a).free = s.free := bumpBy_free s _ _
@[simp] theorem bumpPort_pending (p : Port) (a : Nat) : (s.bumpPort p a).pending = s.pending := bumpBy_pending s _ _
@[simp] theorem bumpPort_tick (p : Port) (a : Nat) : (s.bumpPort p a).tick = s.tick := bumpBy_tick s _ _
@[simp] theorem bumpPort_ident (p : Port) (a : Nat) : (s.bumpPort p a).ident = s.ident := bumpBy_ident s _ _
@[simp] theorem bumpPort_portA (p : Port) (a : Nat) : (s.bumpPort p a).portA = s.portA := bumpBy_portA s _ _
@[simp] theorem bumpPort_portB (p : Port) (a : Nat) : (s.bumpPort p a).portB = s.portB := bumpBy_portB s _ _
@[simp] theorem bumpPort_spaces (p : Port) (a : Nat) : (s.bumpPort p a).spaces = s.spaces := bumpBy_spaces s _ _
@[simp] theorem bumpPort_descs (p : Port) (a : Nat) : (s.bumpPort p a).descs = s.descs := bumpBy_descs s _ _
@[simp] theorem bumpPort_nextDesc (p : Port) (a : Nat) : (s.bumpPort p a).nextDesc = s.nextDesc := bumpBy_nextDesc s _ _
@[simp] theorem bumpPort_segs (p : Port) (a : Nat) : (s.bumpPort p a).segs = s.segs := bumpBy_segs s _ _
@[simp] theorem bumpPort_tenants (p : Port) (a : Nat) : (s.bumpPort p a).tenants = s.tenants := bumpBy_tenants s _ _
@[simp] theorem bumpPort_creating (p : Port) (a : Nat) : (s.bumpPort p a).creating = s.creating := bumpBy_creating s _ _
@[simp] theorem bumpPort_removing (p : Port) (a : Nat) : (s.bumpPort p a).removing = s.removing := bumpBy_removing s _ _
@[simp] theorem bumpPort_ledger (p : Port) (a : Nat) : (s.bumpPort p a).ledger = s.ledger := bumpBy_ledger s _ _
@[simp] theorem bumpPort_awl (p : Port) (a : Nat) : (s.bumpPort p a).awl = s.awl := bumpBy_awl s _ _
@[simp] theorem bumpPort_cinch (p : Port) (a : Nat) : (s.bumpPort p a).cinch = s.cinch := bumpBy_cinch s _ _
@[simp] theorem bumpPort_media (p : Port) (a : Nat) : (s.bumpPort p a).media = s.media := bumpBy_media s _ _
@[simp] theorem bumpPort_secure (p : Port) (a : Nat) : (s.bumpPort p a).secure = s.secure := bumpBy_secure s _ _
@[simp] theorem bumpPort_update (p : Port) (a : Nat) : (s.bumpPort p a).update = s.update := bumpBy_update s _ _
@[simp] theorem bumpPort_power (p : Port) (a : Nat) : (s.bumpPort p a).power = s.power := bumpBy_power s _ _
@[simp] theorem bumpPort_boot (p : Port) (a : Nat) : (s.bumpPort p a).boot = s.boot := bumpBy_boot s _ _
@[simp] theorem bumpPort_smbus (p : Port) (a : Nat) : (s.bumpPort p a).smbus = s.smbus := bumpBy_smbus s _ _
@[simp] theorem bumpPort_events (p : Port) (a : Nat) : (s.bumpPort p a).events = s.events := bumpBy_events s _ _
@[simp] theorem bumpPort_span (p : Port) (a : Nat) : (s.bumpPort p a).span = s.span := bumpBy_span s _ _
@[simp] theorem bumpPort_latches (p : Port) (a : Nat) : (s.bumpPort p a).latches = s.latches := bumpBy_latches s _ _
@[simp] theorem bumpPort_free (p : Port) (a : Nat) : (s.bumpPort p a).free = s.free := bumpBy_free s _ _
@[simp] theorem bumpTnt_pending (t a : Nat) : (s.bumpTnt t a).pending = s.pending := bumpBy_pending s _ _
@[simp] theorem bumpTnt_tick (t a : Nat) : (s.bumpTnt t a).tick = s.tick := bumpBy_tick s _ _
@[simp] theorem bumpTnt_ident (t a : Nat) : (s.bumpTnt t a).ident = s.ident := bumpBy_ident s _ _
@[simp] theorem bumpTnt_portA (t a : Nat) : (s.bumpTnt t a).portA = s.portA := bumpBy_portA s _ _
@[simp] theorem bumpTnt_portB (t a : Nat) : (s.bumpTnt t a).portB = s.portB := bumpBy_portB s _ _
@[simp] theorem bumpTnt_spaces (t a : Nat) : (s.bumpTnt t a).spaces = s.spaces := bumpBy_spaces s _ _
@[simp] theorem bumpTnt_descs (t a : Nat) : (s.bumpTnt t a).descs = s.descs := bumpBy_descs s _ _
@[simp] theorem bumpTnt_nextDesc (t a : Nat) : (s.bumpTnt t a).nextDesc = s.nextDesc := bumpBy_nextDesc s _ _
@[simp] theorem bumpTnt_segs (t a : Nat) : (s.bumpTnt t a).segs = s.segs := bumpBy_segs s _ _
@[simp] theorem bumpTnt_tenants (t a : Nat) : (s.bumpTnt t a).tenants = s.tenants := bumpBy_tenants s _ _
@[simp] theorem bumpTnt_creating (t a : Nat) : (s.bumpTnt t a).creating = s.creating := bumpBy_creating s _ _
@[simp] theorem bumpTnt_removing (t a : Nat) : (s.bumpTnt t a).removing = s.removing := bumpBy_removing s _ _
@[simp] theorem bumpTnt_ledger (t a : Nat) : (s.bumpTnt t a).ledger = s.ledger := bumpBy_ledger s _ _
@[simp] theorem bumpTnt_awl (t a : Nat) : (s.bumpTnt t a).awl = s.awl := bumpBy_awl s _ _
@[simp] theorem bumpTnt_cinch (t a : Nat) : (s.bumpTnt t a).cinch = s.cinch := bumpBy_cinch s _ _
@[simp] theorem bumpTnt_media (t a : Nat) : (s.bumpTnt t a).media = s.media := bumpBy_media s _ _
@[simp] theorem bumpTnt_secure (t a : Nat) : (s.bumpTnt t a).secure = s.secure := bumpBy_secure s _ _
@[simp] theorem bumpTnt_update (t a : Nat) : (s.bumpTnt t a).update = s.update := bumpBy_update s _ _
@[simp] theorem bumpTnt_power (t a : Nat) : (s.bumpTnt t a).power = s.power := bumpBy_power s _ _
@[simp] theorem bumpTnt_boot (t a : Nat) : (s.bumpTnt t a).boot = s.boot := bumpBy_boot s _ _
@[simp] theorem bumpTnt_smbus (t a : Nat) : (s.bumpTnt t a).smbus = s.smbus := bumpBy_smbus s _ _
@[simp] theorem bumpTnt_events (t a : Nat) : (s.bumpTnt t a).events = s.events := bumpBy_events s _ _
@[simp] theorem bumpTnt_span (t a : Nat) : (s.bumpTnt t a).span = s.span := bumpBy_span s _ _
@[simp] theorem bumpTnt_latches (t a : Nat) : (s.bumpTnt t a).latches = s.latches := bumpBy_latches s _ _
@[simp] theorem bumpTnt_free (t a : Nat) : (s.bumpTnt t a).free = s.free := bumpBy_free s _ _
@[simp] theorem bumpTkp_pending (t a : Nat) : (s.bumpTkp t a).pending = s.pending := bumpBy_pending s _ _
@[simp] theorem bumpTkp_tick (t a : Nat) : (s.bumpTkp t a).tick = s.tick := bumpBy_tick s _ _
@[simp] theorem bumpTkp_ident (t a : Nat) : (s.bumpTkp t a).ident = s.ident := bumpBy_ident s _ _
@[simp] theorem bumpTkp_portA (t a : Nat) : (s.bumpTkp t a).portA = s.portA := bumpBy_portA s _ _
@[simp] theorem bumpTkp_portB (t a : Nat) : (s.bumpTkp t a).portB = s.portB := bumpBy_portB s _ _
@[simp] theorem bumpTkp_spaces (t a : Nat) : (s.bumpTkp t a).spaces = s.spaces := bumpBy_spaces s _ _
@[simp] theorem bumpTkp_descs (t a : Nat) : (s.bumpTkp t a).descs = s.descs := bumpBy_descs s _ _
@[simp] theorem bumpTkp_nextDesc (t a : Nat) : (s.bumpTkp t a).nextDesc = s.nextDesc := bumpBy_nextDesc s _ _
@[simp] theorem bumpTkp_segs (t a : Nat) : (s.bumpTkp t a).segs = s.segs := bumpBy_segs s _ _
@[simp] theorem bumpTkp_tenants (t a : Nat) : (s.bumpTkp t a).tenants = s.tenants := bumpBy_tenants s _ _
@[simp] theorem bumpTkp_creating (t a : Nat) : (s.bumpTkp t a).creating = s.creating := bumpBy_creating s _ _
@[simp] theorem bumpTkp_removing (t a : Nat) : (s.bumpTkp t a).removing = s.removing := bumpBy_removing s _ _
@[simp] theorem bumpTkp_ledger (t a : Nat) : (s.bumpTkp t a).ledger = s.ledger := bumpBy_ledger s _ _
@[simp] theorem bumpTkp_awl (t a : Nat) : (s.bumpTkp t a).awl = s.awl := bumpBy_awl s _ _
@[simp] theorem bumpTkp_cinch (t a : Nat) : (s.bumpTkp t a).cinch = s.cinch := bumpBy_cinch s _ _
@[simp] theorem bumpTkp_media (t a : Nat) : (s.bumpTkp t a).media = s.media := bumpBy_media s _ _
@[simp] theorem bumpTkp_secure (t a : Nat) : (s.bumpTkp t a).secure = s.secure := bumpBy_secure s _ _
@[simp] theorem bumpTkp_update (t a : Nat) : (s.bumpTkp t a).update = s.update := bumpBy_update s _ _
@[simp] theorem bumpTkp_power (t a : Nat) : (s.bumpTkp t a).power = s.power := bumpBy_power s _ _
@[simp] theorem bumpTkp_boot (t a : Nat) : (s.bumpTkp t a).boot = s.boot := bumpBy_boot s _ _
@[simp] theorem bumpTkp_smbus (t a : Nat) : (s.bumpTkp t a).smbus = s.smbus := bumpBy_smbus s _ _
@[simp] theorem bumpTkp_events (t a : Nat) : (s.bumpTkp t a).events = s.events := bumpBy_events s _ _
@[simp] theorem bumpTkp_span (t a : Nat) : (s.bumpTkp t a).span = s.span := bumpBy_span s _ _
@[simp] theorem bumpTkp_latches (t a : Nat) : (s.bumpTkp t a).latches = s.latches := bumpBy_latches s _ _
@[simp] theorem bumpTkp_free (t a : Nat) : (s.bumpTkp t a).free = s.free := bumpBy_free s _ _
@[simp] theorem bumpMed_pending (a : Nat) : (s.bumpMed a).pending = s.pending := bumpBy_pending s _ _
@[simp] theorem bumpMed_tick (a : Nat) : (s.bumpMed a).tick = s.tick := bumpBy_tick s _ _
@[simp] theorem bumpMed_ident (a : Nat) : (s.bumpMed a).ident = s.ident := bumpBy_ident s _ _
@[simp] theorem bumpMed_portA (a : Nat) : (s.bumpMed a).portA = s.portA := bumpBy_portA s _ _
@[simp] theorem bumpMed_portB (a : Nat) : (s.bumpMed a).portB = s.portB := bumpBy_portB s _ _
@[simp] theorem bumpMed_spaces (a : Nat) : (s.bumpMed a).spaces = s.spaces := bumpBy_spaces s _ _
@[simp] theorem bumpMed_descs (a : Nat) : (s.bumpMed a).descs = s.descs := bumpBy_descs s _ _
@[simp] theorem bumpMed_nextDesc (a : Nat) : (s.bumpMed a).nextDesc = s.nextDesc := bumpBy_nextDesc s _ _
@[simp] theorem bumpMed_segs (a : Nat) : (s.bumpMed a).segs = s.segs := bumpBy_segs s _ _
@[simp] theorem bumpMed_tenants (a : Nat) : (s.bumpMed a).tenants = s.tenants := bumpBy_tenants s _ _
@[simp] theorem bumpMed_creating (a : Nat) : (s.bumpMed a).creating = s.creating := bumpBy_creating s _ _
@[simp] theorem bumpMed_removing (a : Nat) : (s.bumpMed a).removing = s.removing := bumpBy_removing s _ _
@[simp] theorem bumpMed_ledger (a : Nat) : (s.bumpMed a).ledger = s.ledger := bumpBy_ledger s _ _
@[simp] theorem bumpMed_awl (a : Nat) : (s.bumpMed a).awl = s.awl := bumpBy_awl s _ _
@[simp] theorem bumpMed_cinch (a : Nat) : (s.bumpMed a).cinch = s.cinch := bumpBy_cinch s _ _
@[simp] theorem bumpMed_media (a : Nat) : (s.bumpMed a).media = s.media := bumpBy_media s _ _
@[simp] theorem bumpMed_secure (a : Nat) : (s.bumpMed a).secure = s.secure := bumpBy_secure s _ _
@[simp] theorem bumpMed_update (a : Nat) : (s.bumpMed a).update = s.update := bumpBy_update s _ _
@[simp] theorem bumpMed_power (a : Nat) : (s.bumpMed a).power = s.power := bumpBy_power s _ _
@[simp] theorem bumpMed_boot (a : Nat) : (s.bumpMed a).boot = s.boot := bumpBy_boot s _ _
@[simp] theorem bumpMed_smbus (a : Nat) : (s.bumpMed a).smbus = s.smbus := bumpBy_smbus s _ _
@[simp] theorem bumpMed_events (a : Nat) : (s.bumpMed a).events = s.events := bumpBy_events s _ _
@[simp] theorem bumpMed_span (a : Nat) : (s.bumpMed a).span = s.span := bumpBy_span s _ _
@[simp] theorem bumpMed_latches (a : Nat) : (s.bumpMed a).latches = s.latches := bumpBy_latches s _ _
@[simp] theorem bumpMed_free (a : Nat) : (s.bumpMed a).free = s.free := bumpBy_free s _ _

/-! ### An event raised -/

@[simp] theorem raise_pending (code a b c : Nat) : (s.raise code a b c).pending = s.pending := by unfold State.raise; split <;> rfl
@[simp] theorem raise_tick (code a b c : Nat) : (s.raise code a b c).tick = s.tick := by unfold State.raise; split <;> rfl
@[simp] theorem raise_ident (code a b c : Nat) : (s.raise code a b c).ident = s.ident := by unfold State.raise; split <;> rfl
@[simp] theorem raise_portA (code a b c : Nat) : (s.raise code a b c).portA = s.portA := by unfold State.raise; split <;> rfl
@[simp] theorem raise_portB (code a b c : Nat) : (s.raise code a b c).portB = s.portB := by unfold State.raise; split <;> rfl
@[simp] theorem raise_spaces (code a b c : Nat) : (s.raise code a b c).spaces = s.spaces := by unfold State.raise; split <;> rfl
@[simp] theorem raise_descs (code a b c : Nat) : (s.raise code a b c).descs = s.descs := by unfold State.raise; split <;> rfl
@[simp] theorem raise_nextDesc (code a b c : Nat) : (s.raise code a b c).nextDesc = s.nextDesc := by unfold State.raise; split <;> rfl
@[simp] theorem raise_segs (code a b c : Nat) : (s.raise code a b c).segs = s.segs := by unfold State.raise; split <;> rfl
@[simp] theorem raise_tenants (code a b c : Nat) : (s.raise code a b c).tenants = s.tenants := by unfold State.raise; split <;> rfl
@[simp] theorem raise_creating (code a b c : Nat) : (s.raise code a b c).creating = s.creating := by unfold State.raise; split <;> rfl
@[simp] theorem raise_removing (code a b c : Nat) : (s.raise code a b c).removing = s.removing := by unfold State.raise; split <;> rfl
@[simp] theorem raise_ledger (code a b c : Nat) : (s.raise code a b c).ledger = s.ledger := by unfold State.raise; split <;> rfl
@[simp] theorem raise_awl (code a b c : Nat) : (s.raise code a b c).awl = s.awl := by unfold State.raise; split <;> rfl
@[simp] theorem raise_cinch (code a b c : Nat) : (s.raise code a b c).cinch = s.cinch := by unfold State.raise; split <;> rfl
@[simp] theorem raise_media (code a b c : Nat) : (s.raise code a b c).media = s.media := by unfold State.raise; split <;> rfl
@[simp] theorem raise_secure (code a b c : Nat) : (s.raise code a b c).secure = s.secure := by unfold State.raise; split <;> rfl
@[simp] theorem raise_update (code a b c : Nat) : (s.raise code a b c).update = s.update := by unfold State.raise; split <;> rfl
@[simp] theorem raise_power (code a b c : Nat) : (s.raise code a b c).power = s.power := by unfold State.raise; split <;> rfl
@[simp] theorem raise_boot (code a b c : Nat) : (s.raise code a b c).boot = s.boot := by unfold State.raise; split <;> rfl
@[simp] theorem raise_smbus (code a b c : Nat) : (s.raise code a b c).smbus = s.smbus := by unfold State.raise; split <;> rfl
@[simp] theorem raise_span (code a b c : Nat) : (s.raise code a b c).span = s.span := by unfold State.raise; split <;> rfl
@[simp] theorem raise_counters (code a b c : Nat) : (s.raise code a b c).counters = s.counters := by unfold State.raise; split <;> rfl
@[simp] theorem raise_latches (code a b c : Nat) : (s.raise code a b c).latches = s.latches := by unfold State.raise; split <;> rfl
@[simp] theorem raise_free (code a b c : Nat) : (s.raise code a b c).free = s.free := by unfold State.raise; split <;> rfl

end Sys2Proof.Laws
end

