-- ==== Sys2Proof/Laws/Ops.lean ====
section
/-! SUPPORT. What the shared operations can do, each said once: serving a request, answering it, counting, events, latches,
ring frames, and a step of tally code. -/
namespace Sys2Proof.Laws
open Sys2Proof Sys2Proof.Machine

/-! ### Requests -/

/-- A descriptor found by its id carries it. -/
theorem desc_id {s : State} {id : Nat} {d : Desc} (h : s.desc id = some d) : d.id = id := by
  have := List.find?_some h
  simpa using this

/-- A record found by its key carries it. -/
theorem find_key {t : Tenant} {k : Bytes} {r : Rec} (h : t.find k = some r) : r.key = k := by
  have := List.find?_some h
  simpa using this

/-- A request that waits is served by its opcode's action. -/
theorem serve_waits {s : State} {id op : Nat} {d : Desc} (h : Safety.Waits s id op d) (act : Desc → State → State) :
    s.serve id op act = act d s := by
  obtain ⟨h1, h2, h3, h4⟩ := h
  simp [State.serve, h1, h2, h3, h4]

/-- A command of another opcode, or for a request that has been served, does nothing. -/
theorem serve_other {s : State} {id op : Nat} (h : ∀ d, s.desc id = some d → d.op ≠ op ∨ d.phase ≠ .parsed)
    (act : Desc → State → State) : s.serve id op act = s := by
  unfold State.serve
  split
  · rfl
  · rename_i d hd
    rcases h d hd with k | k <;> simp [k]

/-- A final reply changes the ports' queues and the descriptors, nothing else. -/
theorem answerWith_only (s : State) (id : Nat) (st : Status) (p : Nat) (o k v : Bytes) (r : Option (Nat × Nat)) :
    ∃ a b ds, s.answerWith id st p o k v r = { s with portA := a, portB := b, descs := ds } := by
  unfold State.answerWith
  split
  · exact ⟨s.portA, s.portB, s.descs, rfl⟩
  · rename_i d _
    dsimp only
    unfold State.modDesc
    cases d.port <;> exact ⟨_, _, _, rfl⟩

theorem answer_only (s : State) (id : Nat) (st : Status) (p : Nat) (o k v : Bytes) :
    ∃ a b ds, s.answer id st p o k v = { s with portA := a, portB := b, descs := ds } := by
  unfold State.answer
  split
  · exact ⟨s.portA, s.portB, s.descs, rfl⟩
  · split <;> exact answerWith_only _ _ _ _ _ _ _ _

theorem refuse_only (s : State) (id : Nat) (st : Status) (p : Nat) :
    ∃ a b ds, s.refuse id st p = { s with portA := a, portB := b, descs := ds } := answer_only _ _ _ _ _ _ _

theorem finish_only (s : State) (id p : Nat) :
    ∃ a b ds, s.finish id p = { s with portA := a, portB := b, descs := ds } := answer_only _ _ _ _ _ _ _

/-- A first reply ACCEPTED changes the ports' queues and the descriptors, nothing else. -/
theorem accept_only (s : State) (id : Nat) (ph : Phase) :
    ∃ a b ds, s.accept id ph = { s with portA := a, portB := b, descs := ds } := by
  unfold State.accept
  split
  · exact ⟨s.portA, s.portB, s.descs, rfl⟩
  · rename_i d _
    dsimp only
    split
    · exact ⟨s.portA, s.portB, _, rfl⟩
    · cases d.port <;> exact ⟨_, _, _, rfl⟩

/-- An entry's reply changes the ports' queues and the descriptors, nothing else. -/
theorem replyEntry_only (s : State) (e : Entry) (st : Status) (p : Nat) (k v : Bytes) :
    ∃ a b ds, s.replyEntry e st p k v = { s with portA := a, portB := b, descs := ds } := by
  unfold State.replyEntry
  split
  · exact answer_only _ _ _ _ _ _ _
  · exact ⟨s.portA, s.portB, s.descs, rfl⟩

/-! ### Ports -/

/-- Two changes of a port that agree on its present state are the same change. -/
theorem modPort_congr (s : State) (p : Port) (f g : PortState → PortState) (h : f (s.port p) = g (s.port p)) :
    s.modPort p f = s.modPort p g := by
  cases p <;> simp [State.modPort, State.port] at * <;> rw [h]

/-! ### Counters, latches and events -/

/-- Counting changes the counters alone. -/
theorem bumpBy_only (s : State) (a n : Nat) : ∃ c, s.bumpBy a n = { s with counters := c } := by
  unfold State.bumpBy
  dsimp only
  split
  · exact ⟨s.counters, rfl⟩
  · exact ⟨_, rfl⟩

/-- Raising an event changes the events alone. -/
theorem raise_only (s : State) (code a b c : Nat) : ∃ e, s.raise code a b c = { s with events := e } := by
  unfold State.raise
  split
  · exact ⟨s.events, rfl⟩
  · exact ⟨_, rfl⟩

/-- A rule lookup is counted, and changes nothing else. -/
theorem looked_only (s : State) : ∃ c, s.looked = { s with counters := c } := bumpBy_only s 0x00050100 1

/-- The engine's busy ticks are counted in the tenants alone. -/
theorem tickBusy_only (s : State) : ∃ ts, s.tickBusy = { s with tenants := ts } := by
  unfold State.tickBusy
  generalize s.cinch.busyTenants = l
  induction l generalizing s with
  | nil => exact ⟨s.tenants, rfl⟩
  | cons a l ih =>
    obtain ⟨ts, h⟩ := ih (s.modTenant a _)
    exact ⟨ts, h⟩

/-- A latch shows what was put in it. -/
theorem latch_setLatch (s : State) (p : Path) (a v : Nat) : (s.setLatch p a v).latch p a = v := by
  simp [State.setLatch, State.latch]

/-- Every other latch, of this path and of the other, is as before. -/
theorem latch_setLatch_ne (s : State) (p q : Path) (a b v : Nat) (h : (q, b) ≠ (p, a)) :
    (s.setLatch p a v).latch q b = s.latch q b := by
  simp only [State.setLatch, State.latch]
  rw [List.find?_cons_of_neg]
  · congr 2
    rw [List.find?_filter]
    congr 1
    funext x
    by_cases hx : x.1 = (q, b)
    · simp [hx, h]
    · simp [hx]
  · simpa using Ne.symm h

/-! ### Ring frames -/

/-- A frame that fits is taken into the receive buffer. -/
theorem buffered_fits {s : State} {port : RingPort} {frame : Bytes} (h : s.span.rx (port == .up) + frame.length ≤ 262144) :
    s.buffered (port == .up) frame = some (Safety.received s port frame) := by
  unfold State.buffered
  dsimp only
  rw [if_neg (by omega)]
  rfl

/-- The receive buffer keeps the member's id. -/
@[simp] theorem received_me (s : State) (port : RingPort) (frame : Bytes) :
    (Safety.received s port frame).span.me = s.span.me := by cases port <;> rfl

/-- A frame that this member hears is acted on once it has been passed on. -/
theorem ringIn_heard {s : State} {port : RingPort} {frame : Bytes} {t : Nat} {f : RingFrame}
    (h : Safety.Heard s port frame t f) (fwd : RingFrame → Option RingFrame) (g : RingFrame) (hg : fwd f = some g)
    (act : RingFrame → State → State) : s.ringIn port frame t fwd act = act f (Safety.passed s port frame f g) := by
  obtain ⟨h1, h2, h3, h4, h5, hb, h6⟩ := h
  unfold State.ringIn
  simp only [h1, h2, h3, h4, hg, buffered_fits hb, Bool.not_true, Bool.or_false, decide_eq_true_eq, if_false, ne_eq,
    not_true_eq_false]
  have hr := received_me s port frame
  unfold Safety.passed
  generalize Safety.received s port frame = r at hr ⊢
  have hm : (r.span.hear f.source).me = s.span.me := hr
  have hs : (f.source != s.span.me) = true := by simpa using h5
  have hs' : (f.source == s.span.me) = false := by simpa using h5
  rcases h6 with h6 | ⟨h6, h7⟩
  · have c : (r.span.hear f.source).concerns (port == .up) f = true := by
      unfold Span.concerns; rw [hm, hs, h6]; simp
    simp [h6, c, hm]
  · by_cases ht : f.target = s.span.me
    · have c : (r.span.hear f.source).concerns (port == .up) f = true := by
        unfold Span.concerns; rw [hm, hs, ht]; simp
      simp [ht, c, hm]
    · have c : ((r.span.hear f.source).forward (port == .up) g).concerns (port == .up) f = true := by
        unfold Span.concerns
        rw [show ((r.span.hear f.source).forward (port == .up) g).me = s.span.me from hm, hs, h6, h7, h4]; simp
      have w : (r.span.hear f.source).wentRound (port == .up) f = false := by
        unfold Span.wentRound; rw [hm, hs']; rfl
      simp [ht, c, hm, w]

/-- A frame that is not heard: a drive in no span or not serving does nothing, and a bad frame is counted at its port. -/
theorem ringIn_dropped {s : State} {port : RingPort} {frame : Bytes} {t : Nat} (fwd act) :
      ((s.span.state = .none ∨ s.serving = false) → s.ringIn port frame t fwd act = s) ∧
      (s.span.state ≠ .none → s.serving = true → parseRing frame = .error false →
        s.ringIn port frame t fwd act = s.bump (if port = .up then 0x00020130 else 0x00020138)) ∧
      (s.span.state ≠ .none → s.serving = true → parseRing frame = .error true →
        s.ringIn port frame t fwd act = s.bump (if port = .up then 0x00020150 else 0x00020158)) := by
  refine ⟨fun h => ?_, fun h1 h2 h3 => ?_, fun h1 h2 h3 => ?_⟩
  · rcases h with h | h <;> simp [State.ringIn, h]
  · cases port <;> simp [State.ringIn, h1, h2, h3]
  · cases port <;> simp [State.ringIn, h1, h2, h3]

/-! ### The engine -/

/-- A step of tally code: one step fewer, and the instruction's effect on the tree. -/
theorem tally_runs {s : State} {i : Instr} {t : Tree} {f : Frame} {rest : List Frame} (h : Safety.Runs s i t f rest) :
    s.tallyStep i = { s with ledger := { s.ledger with
      tree := some (s.tallyEffect i { t with stepsLeft := t.stepsLeft - 1 }) } } := by
  obtain ⟨h1, h2, h3, h4, h5⟩ := h
  have h6 : ¬ f.code.length ≤ 4 * f.pc := by
    intro hh
    simp [Tree.current, h3, hh] at h4
  have h7 : ¬ t.stepsLeft = 0 := by omega
  simp [State.tallyStep, h1, h2, h4, State.treeStep, h3, h6, h7]

end Sys2Proof.Laws
end

