-- ==== Sys2Proof/WellFormed.lean ====
section
/-! DEFINITION. Well-formed commands: the operands that the spec's ranges admit. A command outside them names
something the drive does not have (a tenant id of 40, a tile entry of 9,000). -/
namespace Sys2Proof

/-- A function that has sequence spaces: a tenant, the management function or maker service (Table 0.2). -/
def fnWf (fn : Nat) : Bool := fn < 32 || fn == 62 || fn == 63

/-- A flash block's die: 16 channels of at most 8 dies (R293). -/
def BlockId.wf (b : BlockId) : Bool := b.die < 128

/-- A piece of the burnisher's walk (Table 8.5): a word inside a memory, a flash block, a tile entry (8192 rule
entries, R339; numbers above them are automaton slots). -/
def Piece.wf : Piece → Bool
  | .word _ addr _ _ => addr % 8 == 0
  | .flash b _ _ _ _ _ => b.wf
  | .tile entry _ => entry < 8192 + 128

/-- The operands of a command lie in the spec's ranges. -/
def Instr.wf : Instr → Bool
  | .hostFrameReceive _ frame pos _ => pos < 8000 && 0 < frame.length
  | .durableCeilingWrite fn sp => fnWf fn && sp < 8
  | .patternLoad slot => slot < 64
  | .patternPersist slot => slot < 64
  | .longOperationComplete t => t < 32
  | .registerWrite addr _ => addr % 4 == 0 && addr < 2 ^ 32
  | .counterLoRead _ addr => addr % 4 == 0 && addr < 2 ^ 32
  | .pairLRead _ addr => addr % 4 == 0 && addr < 2 ^ 32
  | .drainLimit t => t < 32
  | .resetComplete t => t < 32
  | .wedgeLimit t => t < 32
  | .tenantStop t => t < 32
  | .tenantStart t => t < 32
  | .tkpGenErase t _ => t < 32
  | .lckTdaySet t _ => t < 32
  | .silentMember m => m < 12
  | .batchCommit _ set => set < 16
  | .holdExpire t hold => t < 32 && hold < 2 ^ 32
  | .cursorExpire t slot => t < 32 && slot < 256
  | .readComplete _ _ blk _ => blk.wf
  | .meteringPeriodClose t => t < 32
  | .transferUrgent _ requester => requester < 35
  | .cinchStarved _ requester => requester < 35
  | .burnisherWalk piece => piece.wf
  | .blockRefresh blk to_ => blk.wf && to_.wf
  | .dieRetire _ die => die < 8
  | .ruleParityError entry _ => entry < 8192
  | .automatonParityError slot _ _ => slot < 64
  | .partialWordWrite _ _ offset data _ => 0 < data.length && offset + data.length ≤ 8
  | .powerFail programs => programs ≤ 1024
  | .tackRemask slot mask => slot < 512 && mask.length == 32
  | .tackParityError slot _ => slot < 512
  | .keyRecordPersist record => record < 512
  | .smbSetPointer data _ => data.length ≤ 32
  | .smbWriteWord data _ => data.length ≤ 32
  | .tenantCreateComplete t => t < 32
  | .tenantRemoveComplete t => t < 32
  | _ => true

end Sys2Proof
end

