-- ==== Sys2Proof/Tests/Slice0.lean ====
section
/-! SUPPORT. Tests on fixed values: ill-formed commands refused, and for each statement a state and operands that meet its
hypotheses together. -/
namespace Sys2Proof.Tests
open Sys2Proof Sys2Proof.Machine

/-! ### Ill-formed commands -/

/-- A frame outside its tick, and an empty one. -/
theorem test_wf_frame : (Instr.hostFrameReceive .a [0#8] 8000 1).wf = false ∧ (Instr.hostFrameReceive .a [] 0 0).wf = false := by
  decide

/-- Functions and sequence spaces that do not exist (Table 0.2, R86). -/
theorem test_wf_space :
    (Instr.durableCeilingWrite 32 0).wf = false ∧ (Instr.durableCeilingWrite 61 0).wf = false ∧
      (Instr.durableCeilingWrite 62 8).wf = false ∧ (Instr.durableCeilingWrite 63 7).wf = true := by decide

/-- Pattern slots above 63, and tile entries above 8,191. -/
theorem test_wf_slots :
    (Instr.patternLoad 64).wf = false ∧ (Instr.patternPersist 64).wf = false ∧ (Instr.ruleParityError 8192 true).wf = false ∧
      (Instr.automatonParityError 64 true true).wf = false ∧ (Instr.burnisherWalk (.tile 8320 true)).wf = false := by decide

/-- Tenant ids above 31 (Table 0.2). -/
theorem test_wf_tenants :
    [Instr.longOperationComplete 32, .drainLimit 32, .resetComplete 32, .wedgeLimit 32, .tenantStop 32, .tenantStart 32,
     .tkpGenErase 32 0, .lckTdaySet 32 1, .holdExpire 32 0, .cursorExpire 32 0, .meteringPeriodClose 32,
     .tenantCreateComplete 32, .tenantRemoveComplete 32].all (fun c => !c.wf) = true := by decide

/-- Hold ids and cursor slots out of range. -/
theorem test_wf_leases : (Instr.holdExpire 0 (2 ^ 32)).wf = false ∧ (Instr.cursorExpire 0 256).wf = false := by decide

/-- Register addresses that are not aligned, or wider than 32 bits (R21). -/
theorem test_wf_registers :
    (Instr.registerWrite 2 0).wf = false ∧ (Instr.registerWrite (2 ^ 32) 0).wf = false ∧
      (Instr.counterLoRead .mgmt 1).wf = false ∧ (Instr.pairLRead .smbus 6).wf = false := by decide

/-- Members, sets and requesters that do not exist. -/
theorem test_wf_ids :
    (Instr.silentMember 12).wf = false ∧ (Instr.batchCommit 0 16).wf = false ∧ (Instr.transferUrgent 0 35).wf = false ∧
      (Instr.cinchStarved 0 35).wf = false := by decide

/-- Blocks, dies and words that do not exist. -/
theorem test_wf_media :
    (Instr.readComplete 0 .lost ⟨128, 0⟩ []).wf = false ∧ (Instr.blockRefresh ⟨0, 0⟩ ⟨128, 0⟩).wf = false ∧
      (Instr.dieRetire 0 8).wf = false ∧ (Instr.burnisherWalk (.word .sram 4 .good .unused)).wf = false ∧
      (Instr.burnisherWalk (.flash ⟨128, 0⟩ .lost 0 [] [] [])).wf = false ∧
      (Instr.partialWordWrite .sram 0 7 [0#8, 0#8] .good).wf = false ∧ (Instr.partialWordWrite .sram 0 0 [] .good).wf = false ∧
      (Instr.powerFail 1025).wf = false := by decide

/-- Key slots, masks and SMBus blocks of the wrong size. -/
theorem test_wf_secure :
    (Instr.tackRemask 512 (List.replicate 32 0#8)).wf = false ∧ (Instr.tackRemask 0 []).wf = false ∧
      (Instr.tackParityError 512 true).wf = false ∧ (Instr.keyRecordPersist 512).wf = false ∧
      (Instr.smbSetPointer (List.replicate 33 0#8) true).wf = false ∧
      (Instr.smbWriteWord (List.replicate 33 0#8) true).wf = false := by decide

/-! ### Values from outside the model -/

set_option maxRecDepth 20000 in
/-- The check value that RFC 3720 gives CRC-32C for 32 bytes of zeros, 0x8A9136AA. -/
theorem test_crc32c : crc32c (List.replicate 32 0#8) = 0x8A9136AA := by decide

/-! ### The statements' hypotheses -/

/-- A witness for EmptyQueuePassesOneTick, both clauses. -/
theorem test_wit_empty_queue : State.reset.pending = [] ∧ State.reset.power.rails = .on ∧ State.reset.ledger.stall = 0 ∧
    State.reset.ledger.slewing = false := by decide

/-- A witness for StepKeepsInv: a state that meets Inv and takes a step. -/
theorem test_wit_step_keeps_inv : Safety.Inv State.reset ∧ ∃ t, Sys2Proof.Machine.step State.reset = .next t :=
  ⟨⟨rfl, rfl, rfl⟩, _, rfl⟩

/-- A witness for CommandsKeepQueueAndIdentity. -/
theorem test_wit_commands_keep : ∃ t, Sys2Proof.Machine.exec .updAbandoned State.reset = .next t := ⟨_, rfl⟩

/-- Witnesses for LinkComesUp. -/
theorem test_wit_link_comes_up :
    let x : Partner := { (default : Partner) with kr25 := true, f2 := true, np := true }
    let s0 := { State.reset with portA := { State.reset.portA with
      anStart := some 0, page := { State.reset.portA.page with kr25 := true } } }
    let s1 := { State.reset with portA := { State.reset.portA with an := some { speed := 2, fec := 2, eee := true } } }
    let s2 := { s0 with tick := 125000 }
    (s0.portA.anStart.isSome ∧ s0.portA.up = false ∧ s0.portA.page.kr25 = true ∧ x.kr25 = true ∧ x.noFec = false ∧
      x.f2 = true) ∧
    (s1.portA.an.isSome ∧ s1.portA.up = false ∧ s1.portA.ctl 0 = true) ∧
    (s2.portA.anStart = some 0 ∧ s2.portA.up = false ∧ 0 + 125000 ≤ s2.tick ∧ s2.portA.ctl 0 = true) := by decide

/-- A port that is up, with low-power idle agreed on. -/
def upPort : PortState :=
  { State.reset.portA with up := true, an := some { speed := 2, fec := 2, eee := true }, lpiOk := true,
                           page := { State.reset.portA.page with eee := true }
                           eee := some { rxTw := 4, txTw := 4, expiry := 1000 } }

/-- A drive that serves, with port A up. -/
def upState : State :=
  { State.reset with portA := upPort, boot := { State.reset.boot with phase := 9 }, tick := 100 }

/-- Witnesses for LinkFalls: a link that is up, and one whose training fails. -/
theorem test_wit_link_falls :
    (upState.port .a).up = true ∧
      (let s := { upState with portA := { upPort with up := false, anStart := some 0 } }
       s.portA.up = false ∧ s.portA.anStart = some 0 ∧ s.portA.an.isSome) := by decide

/-- Witnesses for LowPowerIdle, at the first tick that LPI_HOLD allows. -/
theorem test_wit_low_power_idle :
    let s := { upState with tick := 5 }
    s.portA.lpiAllowed s.tick = true ∧ s.portA.txLpi = false ∧ s.portA.short = [] ∧ s.portA.bulkFirst = [] ∧
      s.portA.bulk = [] ∧ s.portA.idleSince + s.portA.lpiHold < s.tick ∧ s.portA.rxLpi = false ∧ s.portA.up = true := by
  decide

/-- Witnesses for LldpAgent: a frame taken aside, a send never made, and a TLV in the tick of its expiry. -/
theorem test_wit_lldp :
    let s := { upState with tick := 1000, portA := { upPort with lldpIn := [(999, [1#8])] } }
    s.portA.lldpIn = (999, [1#8]) :: [] ∧ s.portA.ctl 7 = true ∧ s.portA.ctl 0 = true ∧ s.portA.lldpLast = none ∧
      s.portA.eee.any (fun e => e.expiry ≤ s.tick) := by decide

/-- Witnesses for TransmitterSends: one frame in each queue, on a port that is up and on one that is down. -/
theorem test_wit_transmit :
    let f : OutFrame := default
    (∃ r, ({ upPort with short := [f] }).short = f :: r) ∧ ({ upPort with bulkFirst := [f] }).short = [] ∧
      ({ upPort with bulk := [f] }).bulkFirst = [] ∧ upPort.up = true ∧
      ({ State.reset.portA with short := [f] }).up = false := by
  exact ⟨⟨[], rfl⟩, rfl, rfl, rfl, rfl⟩

/-- Witnesses for StepOneDropsFrames, at the boundary lengths. -/
theorem test_wit_step_one :
    upState.serving = true ∧ (upState.port .a).up = true ∧ (upState.port .a).ctl 0 = true ∧
      upPort.admits (100 * 8000 + 700 - 600) = true ∧
      ({ upPort with admitted := List.replicate 18 (900000, 64) }).admits (100 * 8000 + 700 - 600) = false ∧
      9216 < (List.replicate 9217 (0#8 : Byte)).length ∧ (List.replicate 63 (0#8 : Byte)).length < 64 := by
  refine ⟨by decide, by decide, by decide, by decide, by decide, ?_, by decide⟩
  rw [List.length_replicate]; decide
/-- Its last clause: 64 bytes whose FCS is wrong. -/
theorem test_wit_step_one_fcs : ∃ f : Bytes, f.length = 64 ∧ leNat (f.drop (f.length - 4)) ≠ fcsOf (f.take (f.length - 4)) := by
  by_cases h : fcsOf (List.replicate 60 0#8) = 0
  · refine ⟨List.replicate 60 0#8 ++ [1#8, 0#8, 0#8, 0#8], rfl, ?_⟩
    show leNat [1#8, 0#8, 0#8, 0#8] ≠ fcsOf (List.replicate 60 0#8)
    rw [h]; decide
  · exact ⟨List.replicate 60 0#8 ++ [0#8, 0#8, 0#8, 0#8], rfl, fun e => h (e.symm.trans (by decide))⟩

/-- Witnesses for RequestIsTakenUp: a GET of key 01 by tenant 0, and a drive that takes it. -/
def getReq : Req :=
  { (default : Req) with fn := 0, op := 1, tag := 5, count := 1, index := 0, last := true, keyLen := 1, key := [1#8] }

/-- A running tenant that asks for no authentication. -/
def openTenant : Tenant :=
  { Tenant.absent with state := .running, profile := { Profile.absent with authReq := false, floor := 8, share := 1, weight := 1, lease := 125000 } }

/-- A drive with that tenant. -/
def openState : State := { upState with tenants := openTenant :: List.replicate 31 Tenant.absent }

theorem test_wit_request :
    let s1 := openState.meterRequest 0
    let sp := spaceOf getReq.opts
    getReq.auth = none ∧ openState.secure.lc ≠ .scrapped ∧ (openState.tenant 0).state = .running ∧
      (openState.tenant 0).profile.authReq = false ∧ (s1.tenant 0).state = .running ∧ s1.order6to9 getReq = none ∧
      s1.transferOf 0 sp 5 = none ∧ seg0Ok getReq = true ∧ s1.tagInFlight 0 sp 5 = false ∧ s1.bound12 0 0 = none := by
  decide

/-- A witness for WindowRefusesReplays. -/
theorem test_wit_window : State.reset.spaces.length = 34 ∧ ((State.reset.restartSpaces 62).space 62 7).admits 1 = true := by
  decide

/-- A witness for DurableCeilingIsWritten: tenant 3's space 7. -/
theorem test_wit_durable :
    let s := State.reset.modSpace 3 7 (fun x => { x with dNext := some 5 })
    s.spaces.length = 34 ∧ (∀ l ∈ s.spaces, l.length = 8) ∧ (s.space 3 7).dNext = some 5 := by decide

/-- A descriptor with a PUT of two segments, the first taken in tick 40. -/
def xferDesc : Desc :=
  { (default : Desc) with id := 1, op := 8, tag := 5, key := [1#8], value := [2#8], segCount := 2, total := 2,
                          phase := .transfer { next := 1, lastTick := 40, pendingSeg := false } }

/-- Its second segment, at the last tick of its time. -/
def xferSeg : Seg :=
  { (default : Seg) with id := 1, op := 8, index := 1, count := 2, total := 2, keyLen := 0, last := true,
                         payload := [3#8], arrival := 104 }

/-- Witnesses for SegmentsContinue: a last segment, a middle one of three, one of a wrong opcode, and lateness. -/
theorem test_wit_segments :
    let x : Xfer := { next := 1, lastTick := 40, pendingSeg := false }
    let s := { openState with descs := [xferDesc], segs := [xferSeg], tick := 105 }
    s.desc 1 = some xferDesc ∧ s.segs.find? (fun g => g.id == 1) = some xferSeg ∧ xferSeg.arrival ≤ x.lastTick + 64 ∧
      segOk xferDesc x xferSeg = true ∧ xferSeg.index + 1 = xferSeg.count ∧
      segOk { xferDesc with segCount := 3, total := 3 } x { xferSeg with count := 3, total := 3, last := false } = true ∧
      segOk xferDesc x { xferSeg with op := 9 } = false ∧ x.lastTick + 65 ≤ s.tick := by decide

/-- A witness for EventIsFormed: a fresh drive answers with the claim key. -/
theorem test_wit_event_form :
    let s := { upState with portA := { upPort with reg := some (default, 7) },
                            events := { upState.events with queue := [default] } }
    s.events.queue = [default] ∧ s.secure.lc = .maker ∧ s.portA.reg = some (default, 7) ∧ s.portA.up = true ∧
      s.portB.reg = none := by decide

/-- A record of 3 bytes in the cache. -/
def aRec : Rec :=
  { (default : Rec) with key := [1#8], value := [7#8, 8#8, 9#8], version := 4, lost := .no, cached := true }

/-- A waiting request of an opcode for key 01 by tenant 0. -/
def aDesc (op : Nat) : Desc :=
  { (default : Desc) with id := 1, op := op, fn := 0, key := [1#8], phase := .parsed, arrival := 100, segCount := 1 }

/-- A drive whose tenant 0 owns every key that begins with 01 and holds that record, with a request waiting. -/
def aState (op : Nat) (r : Rec) : State :=
  { openState with
    descs := [aDesc op]
    tenants := { openTenant with recs := [r] } :: List.replicate 31 Tenant.absent
    awl := { Awl.reset with rules := [(0, { pfx := [1#8], tenant := some 0, cls := 0, set := 0, v0 := true, v1 := true })] } }

/-- Witnesses for ReadsOfACachedRecord. -/
theorem test_wit_reads :
    Safety.LocalKey (aState 1 aRec) 0 [1#8] ∧ ((aState 1 aRec).tenant 0).find [1#8] = some aRec ∧
      Safety.Waits (aState 1 aRec) 1 1 (aDesc 1) ∧ Safety.Waits (aState 3 aRec) 1 3 (aDesc 3) ∧
      ((aState 3 aRec).tenant 0).blockingHold [1#8] 100 100 = none ∧ (aState 3 aRec).holdsInUse 0 1 < 8192 ∧
      replyFits ((aState 3 aRec).port .a).txMtu (aDesc 3) (padOpts (tlv 0x49 (toBe 4 1))) [] aRec.value = true := by
  unfold Safety.LocalKey Safety.Waits
  decide

/-- VERIFY's clause: a 16-byte tag to compare, and a key in the tack room. -/
theorem test_wit_verify :
    let d := { aDesc 0x40 with value := List.replicate 16 0#8, total := 16 }
    let s := { aState 0x40 aRec with
      descs := [d]
      secure := { Secure.reset with tack := [{ (default : KeySlot) with kind := .mak, fn := 0 }] } }
    Safety.Waits s 1 0x40 d ∧ (s.macKey 0).isSome ∧ d.param = 0#64 := by
  unfold Safety.Waits
  decide

/-- Witnesses for ReadsFromFlash: the record out of the cache, and a GET that reads it. -/
theorem test_wit_flash :
    let r := { aRec with cached := false }
    let d := { aDesc 1 with refs := 1, phase := .reading false, fetch := some r }
    let s := { aState 1 r with descs := [d] }
    Safety.Waits (aState 1 r) 1 1 (aDesc 1) ∧ s.desc 1 = some d ∧ s.ledger.reads = [] ∧ s.keySet [1#8] = 0 ∧ s.tenants.length = 32 ∧
      (s.tenant 0).find [1#8] = some r := by
  unfold Safety.Waits
  decide

/-- Witnesses for HoldsAndCursors: hold 0 on key 01, a first cursor, and the cursor of slot 0, generation 1. -/
theorem test_wit_holds :
    let h : Hold := { id := 0, key := [1#8], version := 4, start := 100, dur := 1 }
    let c : Cursor := { slot := 0, gen := 1, generic := false, start := [1#8], pos := none, used := 100, lease := 1 }
    let s := (aState 4 aRec).modTenant 0 (fun t => { t with holds := [h], cursors := [c] })
    let d := { aDesc 0x13 with key := [], param := 256#64 }
    Safety.Waits s 1 4 (aDesc 4) ∧ s.rebuilding = false ∧ s.owns 0 [1#8] = true ∧ (s.tenant 0).holdOf 0 [1#8] 100 = some h ∧
      Safety.Waits (aState 0x10 aRec) 1 0x10 (aDesc 0x10) ∧ ((aState 0x10 aRec).tenant 0).freeSlot 100 = some 0 ∧
      Safety.Waits { s with descs := [d] } 1 0x13 d ∧ (s.tenant 0).cursor 256 100 = some c := by
  unfold Safety.Waits
  decide

/-- Witnesses for BrowseAndGenericReads: a first step forward and backward from key 01, and the least key under 01. -/
theorem test_wit_browse :
    let c : Cursor := { slot := 0, gen := 1, generic := false, start := [1#8], pos := none, used := 100, lease := 9 }
    let d (op : Nat) : Desc := { aDesc op with key := [], param := 256#64 }
    let s (op : Nat) := { (aState op aRec).modTenant 0 (fun t => { t with cursors := [c] }) with descs := [d op] }
    Safety.Waits (s 0x11) 1 0x11 (d 0x11) ∧ Safety.Waits (s 0x12) 1 0x12 (d 0x12) ∧
      ((s 0x11).tenant 0).cursor 256 100 = some c ∧ (s 0x11).owns 0 [1#8] = true ∧ (s 0x11).keySet [1#8] = 0 ∧
      (let c1 : Cursor := { c with used := 100, lease := openTenant.profile.leaseTicks }
       (((s 0x11).looked.modTenant 0 (·.modCursor 0 (·.restart 100 openTenant.profile.leaseTicks))).tenant 0).cursor 256 100 =
          some c1 ∧
        (s 0x11).browseStep 0 c1 true = .at [1#8] ∧ (s 0x12).browseStep 0 c1 false = .at [1#8]) ∧
      replyFits ((s 0x11).port .a).txMtu (d 0x11) [] [1#8] aRec.value = true ∧
      Safety.Waits (aState 2 aRec) 1 2 (aDesc 2) ∧ (aState 2 aRec).prefixLeast 0 [1#8] = some [1#8] := by
  unfold Safety.Waits
  decide

/-- The current data key of tenant 0. -/
def aKey : KeySlot := { (default : KeySlot) with kind := .data, fn := 0, gen := 1, gstate := .current }

/-- A drive with that key, a record and a write waiting for key 01. -/
def wState (d : Desc) : State :=
  { aState 8 aRec with descs := [d], secure := { Secure.reset with tack := [aKey] } }

/-- Witnesses for WritesAreAdmitted but for the room, one for each opcode. -/
theorem test_wit_writes :
    let v (op : Nat) : Desc := { aDesc op with value := [5#8], total := 1 }
    let h : Hold := { id := 0, key := [1#8], version := 4, start := 100, dur := 9 }
    let held := { wState (v 10) with tenants := { openTenant with recs := [aRec], holds := [h] } :: List.replicate 31 Tenant.absent }
    Safety.LocalKey (wState (v 8)) 0 [1#8] ∧ (wState (v 8)).keyShort 0 0 = none ∧ (wState (v 8)).thermalOn = false ∧
      (wState (v 8)).holdCheck (v 8) = .ok none ∧ Safety.Waits (wState (v 8)) 1 8 (v 8) ∧
      Safety.Waits (wState (v 9)) 1 9 (v 9) ∧ (held.holdCheck (v 10)) = .ok (some h) ∧ Safety.Waits held 1 10 (v 10) ∧
      Safety.Waits (wState (v 11)) 1 11 (v 11) ∧ Safety.Waits (wState (aDesc 12)) 1 12 (aDesc 12) := by
  unfold Safety.LocalKey Safety.Waits
  decide

/-- The room of its record: a stored form never takes more than its raw form. -/
theorem test_wit_writes_room :
    let d : Desc := { aDesc 8 with value := [5#8], total := 1 }
    let s := wState d
    s.ledger.used + s.reserved + (s.writeEntry d none).room ≤ commitArea := by
  have h : ∀ c, storedBytes c [5#8] ≤ 9 := fun c => by
    show 0 + 8 + (chunkBody c [5#8]).2.length ≤ 9
    unfold chunkBody
    dsimp only
    split
    · next g =>
      simp only [Bool.and_eq_true, decide_eq_true_eq] at g
      have := g.1
      simp only [List.length_singleton] at this ⊢
      omega
    · exact Nat.le_refl _
  show 0 + 0 + State.recordBytes _ [([1#8], some [5#8])] ≤ commitArea
  simp only [State.recordBytes, List.foldl, Option.elim, commitArea, ceilDiv, List.length_singleton]
  refine Nat.le_trans (m := 0 + 0 + (16 + 8 * ((1 + (9 + 28) + 8 - 1) / 8))) ?_ (by decide)
  have := h ((wState { aDesc 8 with value := [5#8], total := 1 }).keyClass [1#8])
  gcongr

/-- An entry of a PUT of key 01 that waits for its record. -/
def aEntry : Entry :=
  { desc := none, kind := .write, set := 0, tenant := 0, op := 8, param := 0#64, key := [1#8], value := [5#8],
    expect := none, heldVer := none, heldBy := [], heldKeys := [], readSet := [], tick := 0, wall := 0, unread := [],
    effects := none, room := 0, steps := 0, stamp := 0 }

/-- A drive with that entry in front. -/
def cState : State :=
  { wState (aDesc 8) with
    tenants := { openTenant with recs := [aRec], profile := { openTenant.profile with quota := 100 } } ::
      List.replicate 31 Tenant.absent
    ledger := { Ledger.reset with order := [aEntry], journal := [default] } }

/-- Witnesses for RecordsCommitAndDestage. -/
theorem test_wit_commit :
    cState.power.rails = .on ∧ cState.ledger.order = [aEntry] ∧ aEntry.unread = [] ∧
      cState.decideWrite aEntry = .ok { writes := [([1#8], some [5#8])], result := [], legs := [] } ∧
      cState.ledger.journal = [default] ∧ cState.dark = false ∧ cState.destaging (default : JRec).number = false ∧
      ({ cState.power with energy := 24000 } : Power).programLimit ≠ 0 := by decide

/-- A witness for CommittedWriteIsTheRecord: the state above. -/
theorem test_wit_committed :
    aEntry.effects = none ∧ aEntry.kind = .write ∧ aEntry.set = 0 ∧ aEntry.tenant < 32 ∧ cState.tenants.length = 32 ∧
      (cState.tenant 0).coll = none := by decide

/-- A frame about to execute the instruction of four code bytes, with 7 in register 1 and -2 in register 2. -/
def aFrame (code : Bytes) : Frame :=
  { code := code, consts := [5], regs := 0 :: 7 :: -2 :: List.replicate 13 0, flag := .eq,
    bufs := [[1#8, 0x23#8, 0x4C#8], [1#8], [], []], pc := 0, resultBuf := 3 }

/-- A tree of tenant 0 with that frame alone. -/
def aTree (code : Bytes) : Tree :=
  { tenant := 0, set := 0, heldBy := [], heldKeys := [], names := [], seq := 9, tick := 3, wall := 4, day := 2, frames := [aFrame code], stepsLeft := 1,
    keysRead := [], called := [], writes := [], legs := [], ended := none, result := [] }

/-- A drive whose engine runs that tree, with a record under key 01. -/
def tState (code : Bytes) : State := { aState 0x21 aRec with ledger := { Ledger.reset with tree := some (aTree code) } }

/-- An instruction's word with a = 1, b = 2 and an immediate. -/
def tWord (op hi lo : Nat) : Bytes := [BitVec.ofNat 8 op, 0x12#8, BitVec.ofNat 8 hi, BitVec.ofNat 8 lo]

/-- The engine is about to execute what the word of its only frame spells. -/
theorem test_runs (w : Bytes) (i : Instr) (h : (aTree w).current = some i) :
    Safety.Runs (tState w) i (aTree w) (aFrame w) [] := ⟨rfl, rfl, rfl, h, Nat.one_pos⟩

/-- The word spells the instruction. -/
def spells (w : Bytes) (i : Instr) : Bool := (aTree w).current == some i

/-- Each word of Table 4.4 is decoded as its instruction: opcode, registers, immediate. -/
theorem test_tally_words :
    tallyDecode (tWord 0x00 0 0) = some .halt ∧ tallyDecode (tWord 0x01 0xFF 0xFE) = some (.ldi 1 0xFFFE#16) ∧
      tallyDecode (tWord 0x08 0 0) = some (.add 1 2) ∧ tallyDecode (tWord 0x0D 0 3) = some (.muldiv 1 2 3#16) ∧
      tallyDecode (tWord 0x18 0 2) = some (.ldbe 1 2 2#16) ∧ tallyDecode (tWord 0x23 0 0) = some (.leg 1 2 0#16) ∧
      tallyDecode (tWord 0x32 0 0x60) = some (.long 0x60#16) ∧ tallyDecode (tWord 0x33 0 0) = none := by decide

/-- Witnesses for TallyArithmetic. -/
theorem test_wit_tally_arithmetic :
    spells (tWord 0x01 0 1) (.ldi 1 1#16) = true ∧ (spells (tWord 0x02 0 0) (.ldc 1 0#16) = true ∧ (aFrame []).consts[0]? = some 5) ∧
      spells (tWord 0x03 0 0) (.mov 1 2) = true ∧ spells (tWord 0x08 0 0) (.add 1 2) = true ∧ spells (tWord 0x09 0 0) (.sub 1 2) = true ∧
      spells (tWord 0x0A 0 0) (.mul 1 2) = true ∧ spells (tWord 0x0B 0 0) (.div 1 2) = true ∧ spells (tWord 0x0C 0 0) (.rem 1 2) = true ∧
      spells (tWord 0x0D 0 2) (.muldiv 1 2 2#16) = true ∧ spells (tWord 0x0E 0 0) (.neg 1) = true ∧ spells (tWord 0x10 0 0) (.cmp 1 2) = true ∧
      fitsSigned 128 (7 * -2) = true ∧ (aFrame []).reg 2 ≠ 0 ∧ fitsSigned 128 (divHalfEven (7 * -2) (-2)) = true := by
  decide

/-- Witnesses for TallyFaults: the least results beyond 128 bits, a divisor of zero, and an image with one constant. -/
theorem test_wit_tally_faults :
    fitsSigned 128 ((2 ^ 127 - 1) + 1) = false ∧ fitsSigned 128 (-2 ^ 127 - 1) = false ∧ fitsSigned 128 (2 ^ 64 * 2 ^ 63) = false ∧
      fitsSigned 128 (-(-2 ^ 127)) = false ∧ (aFrame []).reg 3 = 0 ∧ divisorReg 3#16 = 3 ∧ (aFrame []).consts[1]? = none := by
  decide

/-- Witnesses for TallyBuffers: buffer 0 holds 01 23 4C, offset register 3 is zero, and the loads end at its last byte. -/
theorem test_wit_tally_buffers :
    let W (op lo : Nat) : Bytes := [BitVec.ofNat 8 op, 0x13#8, 0#8, BitVec.ofNat 8 lo]
    let b := (aFrame []).buf 0
    (aFrame []).reg 3 = 0 ∧ spells (W 0x18 3) (.ldbe 1 3 3#16) = true ∧ 0 + 3 ≤ b.length ∧ spells (W 0x1A 3) (.ldpd 1 3 3#16) = true ∧
      packedValue (slice b 0 3) = .ok 1234 ∧ spells (W 0x1C 1) (.ldzd 1 3 1#16) = true ∧ zonedValue (slice [0xD7#8] 0 1) = .ok (-7) ∧
      spells (W 0x19 1) (.stbe 1 3 1#16) = true ∧ fitsSigned 8 7 = true ∧ spells (W 0x1B 2) (.stpd 1 3 2#16) = true ∧
      toPacked 2 7 = .ok [0#8, 0x7C#8] ∧ spells (W 0x1D 1) (.stzd 1 3 1#16) = true ∧ toZoned 1 7 = .ok [0xC7#8] ∧
      spells (W 0x1E 0) (.len 1 0#16) = true ∧ spells (W 0x1F 0) (.setlen 1 0#16) = true := by
  decide

/-- Witnesses for TallyRecords: key 01 in buffer 1, with -1 or the version 4 expected. -/
theorem test_wit_tally_records :
    (aFrame []).buf (bufFirst 0x60#16) = [1#8] ∧ (tState []).treeKeyFault (aTree []) [1#8] = none ∧
      spells (tWord 0x20 0 0x60) (.read 1 0x60#16) = true ∧ (tState []).treeView (aTree []) [1#8] = .ok (some ([7#8, 8#8, 9#8], 4)) ∧
      spells (tWord 0x21 0 0x60) (.write 1 0x60#16) = true ∧ spells (tWord 0x22 0 0x60) (.del 1 0x60#16) = true ∧
      (tState []).treeHeld (aTree []) [1#8] = none ∧ (tState []).treeVersion (aTree []) [1#8] = 4 ∧
      spells (tWord 0x23 0 0x60) (.leg 1 2 0x60#16) = true ∧ currencyOk (toBe 3 (ofSigned 24 0x455552)) = true ∧
      spells (tWord 0x28 0 3) (.clk 1 3#16) = true := by
  decide

/-- An image of one HALT (Table 4.3). -/
def haltImage : Bytes := [2#8, 0#8, 0#8, 1#8, 0#8, 0#8, 0#8, 1#8] ++ List.replicate 8 0#8 ++ [0#8, 0#8, 0#8, 0#8]

/-- Witnesses for TallyControl: a branch to itself, one not taken, a callee, and both returns. -/
theorem test_wit_tally_control :
    let br (c : Nat) : Bytes := [0x11#8, BitVec.ofNat 8 (16 * c), 0#8, 0#8]
    spells (br 0) (.br 0 0#16) = true ∧ conditionHolds 0 .eq = some true ∧ (4 * (((aFrame (br 0)).pc : Int) + (0#16).toInt) < (br 0).length) ∧
      spells (br 2) (.br 2 0#16) = true ∧ conditionHolds 2 .eq = some false ∧
      spells (tWord 0x30 0 0x60) (.call 0x60#16) = true ∧ imageOk haltImage = true ∧ spells (tWord 0 0 0) .halt = true ∧
      ({ aTree [] with frames := [aFrame (tWord 0 0 0), aFrame []] } : Tree).current = some .halt ∧
      spells (tWord 0x31 0 9) (.fail 9#16) = true ∧ spells (tWord 0x32 0 0x60) (.long 0x60#16) = true := by
  decide

/-- An account of EUR with a balance of 100 and a floor of 0 (Table 4.1). -/
def account (balance : Nat) : Bytes :=
  [1#8, 0x45#8, 0x55#8, 0x52#8, 0#8, 0#8, 0#8, 1#8] ++ toBe 8 3 ++ toBe 16 balance ++ List.replicate 32 0#8

/-- Two legs of EUR that move 100 from key 01 to key 02, all that the first account may give. -/
def twoLegs : List Leg :=
  [{ currency := [0x45#8, 0x55#8, 0x52#8], amount := -100, key := [1#8] },
   { currency := [0x45#8, 0x55#8, 0x52#8], amount := 100, key := [2#8] }]

/-- A witness for PostingMovesBalances and PostingConservesCurrency: the balance falls to its floor. -/
theorem test_wit_stage3 :
    (match stage3 (fun _ => .ok (some (account 100))) 7 twoLegs with
      | .ok accs => accs.map (fun a => (a.1, balanceOf a.2)) == [([1#8], 0), ([2#8], 200)]
      | .error _ => false) = true ∧ zeroSumFault twoLegs = none := by decide

/-- A posting body of two legs that move 100 EUR from key 01 to key 02, with no narrative (Tables 3.6, 3.7). -/
def postBody : Bytes :=
  [2#8, 0#8, 0#8, 0#8] ++ List.replicate 12 0#8 ++
    [1#8, 0x45#8, 0x55#8, 0x52#8] ++ List.replicate 15 0xFF#8 ++ [0x9C#8, 0#8, 1#8] ++
    [1#8, 0x45#8, 0x55#8, 0x52#8] ++ List.replicate 15 0#8 ++ [0x64#8, 0#8, 2#8]

/-- A drive whose tenant 0 owns keys that begin with 01 or 02, each holding an account. -/
def pState (d : Desc) : State :=
  let r (k : Byte) : Rec := { aRec with key := [k], value := account 100, version := 3, gen := 1 }
  { wState d with
    tenants := { openTenant with recs := [r 1#8, r 2#8] } :: List.replicate 31 Tenant.absent
    awl := { Awl.reset with rules := [
      (0, { pfx := [1#8], tenant := some 0, cls := 0, set := 0, v0 := true, v1 := true }),
      (1, { pfx := [2#8], tenant := some 0, cls := 0, set := 0, v0 := true, v1 := true })] } }

/-- The body of the tests keeps R117, and its legs are those that stage 3 was tried with. -/
theorem test_post_body : bodyLegs postBody = some twoLegs := by decide

/-- A POST of that body. -/
def postDesc : Desc := { aDesc 0x20 with key := [], value := postBody, total := 60 }

/-- A drive with that request waiting. -/
def postState : State := pState postDesc

/-- Witnesses for PostingsAreAdmitted but for the room: a POST, and a program of one HALT under key 01. -/
theorem test_wit_post :
    let d := postDesc
    let s := postState
    Safety.Waits s 1 0x20 d ∧ s.looked.postStage1 d = .ok (twoLegs, 0) ∧ s.looked.keyShort 0 0 = none ∧
      s.looked.thermalOn = false ∧ s.looked.postStage2 d twoLegs = none ∧ s.looked.engineRoom 0 64 = none ∧
      s.looked.ledger.used = 0 := by
  refine ⟨⟨?_, ?_, ?_, ?_⟩, ?_, ?_, ?_, ?_, ?_, ?_⟩ <;> decide

/-- The program clause. -/
theorem test_wit_post_program :
    let d := aDesc 0x21
    let r := { aRec with value := haltImage }
    let s := { wState d with tenants := { openTenant with recs := [r] } :: List.replicate 31 Tenant.absent }
    let e := s.looked.programEntry d r
    Safety.Waits s 1 0x21 d ∧ s.looked.writeGate 0 [1#8] 0 = none ∧ s.looked.keySet [1#8] = 0 ∧
      r.lost = .no ∧ s.looked.programHolds d e (s.looked.runEntry e) = none ∧
      s.looked.engineRoom 0 e.cost = none ∧ (s.looked.runEntry e).ended = some .halted := by
  unfold Safety.Waits
  decide

/-- An entry of the POST or program above. -/
def engineEntry (kind : EntryKind) (key value : Bytes) : Entry :=
  { aEntry with kind := kind, key := key, value := value, desc := some 1, steps := 1 }

/-- The account that the first leg takes from, one short of what it gives. -/
def poorState : State :=
  { postState with
    tenants := { openTenant with recs := [
      { aRec with key := [1#8], value := account 99, version := 3 },
      { aRec with key := [2#8], value := account 0, version := 3 }] } ::
        List.replicate 31 Tenant.absent
    ledger := { Ledger.reset with order := [engineEntry .post [] postBody] } }

/-- Witnesses for PostingsRun: a posting that its accounts bear, and one that breaks the floor at its first leg. -/
theorem test_wit_stage3_runs :
    (match (postState.decidePost (engineEntry .post [] postBody)) with
      | .ok fx => !fx.writes.isEmpty
      | .error _ => false) = true ∧
    (match poorState.decidePost (engineEntry .post [] postBody) with
      | .ok _ => none
      | .error x => some x) = some (.floorBreached, 0, []) := by
  constructor <;> decide

/-- A tree that halts with nothing written, and one that faults at its first instruction. -/
theorem test_wit_tree_runs :
    let e := engineEntry .program [1#8] []
    let s (v : Bytes) : State := { wState (aDesc 0x21) with
      tenants := { openTenant with recs := [{ aRec with value := v }] } :: List.replicate 31 Tenant.absent
      ledger := { Ledger.reset with order := [e] } }
    let bad : Bytes := haltImage.take 16 ++ [0x33#8, 0#8, 0#8, 0#8]
    (s haltImage).engineTree.isSome ∧ ((s haltImage).runEntry e).ended = some .halted ∧
      (s haltImage).treeMissing e ((s haltImage).runEntry e) = [] ∧
      ((s bad).runEntry e).ended = some (.fault 4 0 1) := by decide

/-- A record that the tree calls or reads and that is not cached has to be read; a cached one has not. -/
theorem test_wit_tree_fetches :
    let e := engineEntry .program [1#8] []
    let s (cached : Bool) : State := { wState (aDesc 0x21) with
      tenants := { openTenant with recs := [{ aRec with cached := cached }] } :: List.replicate 31 Tenant.absent }
    let t : Tree := { (s true).runEntry e with tenant := 0, called := [aRec.key] }
    (s false).treeMissing e t = [aRec.key] ∧ (s true).treeMissing e t = [] := by decide

/-- A witness for DayCloses: the management function closes day 5, the last that may be closed being 2 ^ 32 - 2. -/
theorem test_wit_day_closes :
    let d : Desc := { aDesc 0x22 with fn := 62, key := [], param := 5#64 }
    let s := { openState with descs := [d] }.modTenant 0 (fun t => { t with day := 5 })
    Safety.Waits s 1 0x22 d ∧ s.span.state = .none ∧ s.ledger.order = [] ∧ s.tenants.length = 32 ∧ closeTarget d = 0 ∧
      (s.tenant 0).state ≠ .absent ∧ (s.tenantSets 0).any s.span.fencedAt = false ∧ (s.closeEntry d 0).set = 0 ∧
      (s.tenant 0).day = d.param.toNat % 2 ^ 32 ∧ (2 ^ 32 - 2) + 1 < 2 ^ 32 := by
  unfold Safety.Waits
  decide

/-- Witnesses for TimeIsSet: forward by nothing, back by 2 s, and back by one microsecond more. -/
theorem test_wit_time :
    let d (n : Nat) : Desc := { aDesc 0x48 with fn := 62, key := [], param := BitVec.ofNat 64 n }
    let s (n : Nat) := { openState with descs := [d n], ledger := { Ledger.reset with wall := 3000000, slewing := true } }
    Safety.Waits (s 3000000) 1 0x48 (d 3000000) ∧ Safety.Waits (s 1000000) 1 0x48 (d 1000000) ∧
      Safety.Waits (s 999999) 1 0x48 (d 999999) ∧ (s 0).span.state = .none ∧ (s 0).lastClose ≤ 0 ∧
      3000000 - 1000000 ≤ 2000000 ∧ 2000000 < 3000000 - 999999 ∧ (s 0).ledger.slewing = true ∧ (s 0).ledger.debt = 0 := by
  unfold Safety.Waits
  decide

/-- Witnesses for ClockRegistersAndPeriods: the least day, and a period in the tick of its close. -/
theorem test_wit_clock :
    (openState.tenant 0).state ≠ .absent ∧ (openState.tenant 0).recs = [] ∧ 1#32 ≠ 0#32 ∧
      ((openState.modTenant 0 (fun t => { t with period := { t.period with closeTick := 100 } })).tenant 0).period.closeTick ≤
        openState.tick ∧ openState.ledger.wallJournalAt + 125000 ≤ 125000 := by decide

/-- Witnesses for QueryReports: the four reports to tenant 0. -/
theorem test_wit_query :
    let d (n : Nat) : Desc := { aDesc 0x50 with key := [], param := BitVec.ofNat 64 n }
    let s (n : Nat) : State := { openState with descs := [d n] }
    Safety.Waits (s 0) 1 0x50 (d 0) ∧ Safety.Waits (s 1) 1 0x50 (d 1) ∧ Safety.Waits (s 2) 1 0x50 (d 2) ∧
      Safety.Waits (s 3) 1 0x50 (d 3) ∧ ((s 1).tenant 0).periodAt 0 = some Period.none ∧ (s 3).span.counts = false ∧
      ((s 0).tenant 0).state ≠ .absent := by
  unfold Safety.Waits
  decide

/-- A drive whose tenant 0 has one pattern slot with an image in its current bank. -/
def searchState (op : Nat) : State :=
  { aState op aRec with
    tenants := { openTenant with recs := [aRec], pslots := [0] } :: List.replicate 31 Tenant.absent
    awl := { (aState op aRec).awl with slots := { PatSlot.empty with
      owner := some (0, 0), bank0 := some [3#8], load := [(1, [3#8])] } :: List.replicate 63 PatSlot.empty } }

/-- Witnesses for ScansAndPatterns. -/
theorem test_wit_scans :
    let s (op : Nat) := searchState op
    Safety.Waits (s 0x30) 1 0x30 (aDesc 0x30) ∧ Safety.Waits (s 0x31) 1 0x31 (aDesc 0x31) ∧ (s 0x30).rebuilding = false ∧
      (s 0x30).looked.scanGate (aDesc 0x30) = none ∧ (aDesc 0x30).bitsOf 1 0 ≠ 2 ∧
      (((s 0x30).looked.slot 0).bank ((s 0x30).looked.slot 0).current).isSome = true ∧
      (s 0x30).looked.scanBound 0 0 false = none ∧ ((s 0).slot 0).load = (1, [3#8]) :: [] ∧
      (s 0).bankBound 0 (!((s 0).slot 0).current) = false := by
  unfold Safety.Waits
  decide

/-- The time limit's clause, in the first tick at which it applies. -/
theorem test_wit_scan_limit :
    let c : Scan := { (default : Scan) with desc := 1, mode := 1, began := 100 }
    let s := { upState with tick := 62600, awl := { Awl.reset with scans := [c] } }
    s.scanOf 1 = some c ∧ c.mode ≠ 2 ∧ c.began + 62500 ≤ s.tick := by decide

/-- Witnesses for LongOperations: tenant 0 by the management function, with a pending key, and an operation that ends. -/
theorem test_wit_long :
    let p (op : Nat) : Nat := if op = 0x60 then 0x464F524D * 2 ^ 32 else 0
    let d (op : Nat) : Desc := { aDesc op with fn := 62, key := [], param := BitVec.ofNat 64 (p op) }
    let s (op : Nat) : State := { wState (d op) with secure := { Secure.reset with tack := [{ aKey with gstate := .pending }] } }
    let l : LongOp := { kind := .compact, issuer := some 1, opcode := 0x62, percent := 0, wasStopped := false, count := 0 }
    Safety.Waits (s 0x60) 1 0x60 (d 0x60) ∧ Safety.Waits (s 0x61) 1 0x61 (d 0x61) ∧ Safety.Waits (s 0x62) 1 0x62 (d 0x62) ∧
      ((s 0x60).tenant 0).state = .running ∧ (s 0x60).replicated 0 = false ∧
      ((s 0x61).secure.genIn 0 .pending).isSome = true ∧
      (((s 0x62).modTenant 0 (fun t => { t with longOp := some l })).tenant 0).longOp = some l := by
  unfold Safety.Waits
  decide

/-- A value with a profile: no quota, floor 0, weight 1, share 0, three key slots. -/
def profileValue : Bytes := [0#8, 0#8, 0#8, 0#8, 0#8, 0#8, 0#8, 0#8, 0#8, 0#8, 0#8, 1#8, 0#8, 3#8] ++ List.replicate 18 0#8

/-- A management request of an opcode with a parameter, and a state that holds it. -/
def mgmtDesc (op p : Nat) : Desc := 
  { aDesc op with fn := 62, key := [], param := BitVec.ofNat 64 p }

/-- The same with a profile as its value. -/
def profileDesc (op p : Nat) : Desc := { mgmtDesc op p with value := profileValue, total := 32 }

/-- A state in OWNED whose tenant 0 is in a tenant state, with one request. -/
def ownedState (x : TenantState) (d : Desc) : State :=
  { openState with
    descs := [d]
    secure := { Secure.reset with rows := [0#64, 0#64, 0#64, lcRow true .maker .owned 1 0] }
    tenants := { openTenant with state := x } :: List.replicate 31 Tenant.absent }

set_option maxRecDepth 8000 in
/-- Witnesses for TenantsAreCreatedAndRemoved: tenant 1 created, tenant 0 resized, removed, stopped and started. -/
theorem test_wit_tenants :
    let c := ownedState .stopped (profileDesc 0x74 1)
    let z := ownedState .stopped (profileDesc 0x75 (127 * 2 ^ 32))
    let r := ownedState .stopped (mgmtDesc 0x76 0)
    Safety.Waits c 1 0x74 (profileDesc 0x74 1) ∧ (c.tenant 1).state = .absent ∧
      c.profileFault 1 (profileOf profileValue) 0 0x7F = none ∧ profileReserved profileValue = false ∧
      Safety.Waits z 1 0x75 (profileDesc 0x75 (127 * 2 ^ 32)) ∧ z.profileFault 0 (profileOf profileValue) 0 127 = none ∧
      z.shareInUse 0 0 = false ∧ (z.secure.keysOf 0).length ≤ 3 ∧ Safety.Waits r 1 0x76 (mgmtDesc 0x76 0) ∧
      r.replicated 0 = false ∧ c.secure.lc = .owned := by
  unfold Safety.Waits
  refine ⟨?_, ?_, ?_, ?_, ?_, ?_, ?_, ?_, ?_, ?_, ?_⟩ <;> decide

/-- Witnesses for START and for a second STOP: nothing else waits, and the rails are on. -/
theorem test_wit_tenant_start :
    let s := ownedState .stopped (mgmtDesc 0x76 0)
    (s.tenant 0).state = .stopped ∧ s.tenants.length = 32 ∧ s.pending = [] ∧ s.dark = false ∧
      ((ownedState .squashing (mgmtDesc 0x76 0)).tenant 0).state = .squashing := by decide

/-- Witnesses for the completions and for STOP. -/
theorem test_wit_tenant_ends :
    let s := { ownedState .removing (mgmtDesc 0x76 0) with creating := [(1, 1, Profile.absent)], removing := [(0, 1)] }
    s.creating.find? (fun c => c.1 == 1) = some (1, 1, Profile.absent) ∧ (s.tenant 0).state = .removing ∧
      assoc s.removing 0 = some 1 ∧ ((ownedState .busy (mgmtDesc 0x76 0)).tenant 0).state = .busy := by decide

/-- Witnesses for TenantsReset: the first tick of each limit, with the issuer's request among what is left. -/
theorem test_wit_tenant_reset :
    let f := ownedState .busy (mgmtDesc 0x72 0)
    let u := ownedState .running (mgmtDesc 0x73 (0x52535431 * 2 ^ 32 + 1))
    let at_ (x : TenantState) (tick fn : Nat) : State :=
      let s : State := { ownedState x { aDesc 8 with fn := fn } with tick := tick }
      s.modTenant 0 (fun y => { y with resetAt := 100, resetBy := [1], emptied := fn == 62 })
    Safety.Waits f 1 0x72 (mgmtDesc 0x72 0) ∧ (f.tenant 0).state = .busy ∧ Safety.Waits u 1 0x73 (mgmtDesc 0x73 (0x52535431 * 2 ^ 32 + 1)) ∧
      ((at_ .draining 612 0).tenant 0).resetAt + 512 ≤ 612 ∧ (at_ .draining 612 0).drained 0 = false ∧
      ((at_ .squashing 4196 0).tenant 0).resetAt + 4096 ≤ 4196 ∧ (at_ .squashing 4196 0).drained 0 = false ∧
      ((at_ .squashing 101 62).tenant 0).emptied = true ∧ ((at_ .squashing 101 62).tenant 0).resetBy = [1] ∧
      ((at_ .stopped 101 62).tenant 0).resetAt < 101 := by
  unfold Safety.Waits
  refine ⟨?_, ?_, ?_, ?_, ?_, ?_, ?_, ?_, ?_, ?_⟩ <;> decide

/-- Witnesses for RulesAreLoaded: an image of no entries for a tenant without rules, and a load to validate. -/
theorem test_wit_rules :
    let img : Bytes := [4#8, 0#8, 0#8, 0#8, 0#8, 0#8, 0#8, 0#8, 0#8, 0#8, 0#8, 0#8, 0#8, 0#8, 0#8, 0#8]
    let d : Desc := { mgmtDesc 0x77 0 with value := img, total := 16 }
    let s0 := ownedState .stopped d
    let s : State := { s0 with awl := Awl.reset }
    let l : RuleLoading := { desc := 1, target := 0, affected := [], coll := none, started := 100 }
    Safety.Waits s 1 0x77 d ∧ (s.tenant 0).state = .stopped ∧ s.imageFault 0 img = none ∧ (loadParts d).1 = none ∧
      s.affectedBy 0 [] = [] ∧ s.outsideFault [0] [] false = none ∧ s.secure.nsbLeft 0 ≠ 0 ∧ s.awl.loading = none ∧
      ({ s with awl := { s.awl with loading := some l } } : State).awl.loading = some l := by
  unfold Safety.Waits
  refine ⟨?_, ?_, ?_, ?_, ?_, ?_, ?_, ?_, ?_⟩ <;> decide

set_option maxRecDepth 20000 in
/-- Witnesses for CollationIsAPermutation: a table of zeros refused, and the identity table. -/
theorem test_wit_collation :
    let img : Bytes := [4#8, 0#8, 0#8, 0#8, 0#8, 0#8, 0#8, 0#8, 0#8, 0#8, 0#8, 0#8, 0#8, 0#8, 0#8, 0#8]
    let d : Desc := { mgmtDesc 0x77 256 with value := List.replicate 256 0#8 ++ img, total := 272 }
    let s := ownedState .stopped d
    Safety.Waits s 1 0x77 d ∧ (s.tenant (d.bitsOf 5 0)).state ≠ .busy ∧ s.imageFault (d.bitsOf 5 0) (loadParts d).2 = none ∧
      (loadParts d).1 = some (List.replicate 256 0#8) ∧ isPermutation (List.replicate 256 0#8) = false := by
  unfold Safety.Waits
  refine ⟨?_, ?_, ?_, ?_, ?_⟩ <;> decide

set_option maxRecDepth 20000 in
/-- Witnesses for KeysAreLoadedAndKept but for the blob, whose unwrapping is the algorithm's: tenant 0's data key. -/
theorem test_wit_keys :
    let d : Desc := { mgmtDesc 0x7A 0x100 with value := List.replicate 72 0#8, total := 72 }
    let k : KeySlot := { (default : KeySlot) with kind := .data, fn := 0, gen := 2, gstate := .retired, slot := 32 }
    let s0 := ownedState .running d
    let s : State := s0.modTenant 0 (fun t => { t with profile := { t.profile with keyslots := 4 } })
    let z : State := { s with secure := { s.secure with tack := [k], keyLoads := [(1, k)] } }
    Safety.Waits s 1 0x7A d ∧ s.secure.lc = .owned ∧ (s.tenant 0).state = .running ∧ kindOf (d.bitsOf 11 8) = .data ∧
      s.keyTargetBad (d.bitsOf 11 8) 0 = false ∧ s.slotsForbid .data 0 = false ∧ z.secure.keyLoads = (1, k) :: [] ∧ bits (0x45520002#32).toNat 31 16 = 0x4552 ∧
      z.secure.tack.find? (fun k => k.kind == .data && k.fn == 0 && k.gen == 2 && k.gstate == .retired) = some k ∧
      z.secure.tack.find? (fun k => k.slot == 32 && !k.lost) = some k ∧ s.secure.reseedAt + 125000 ≤ 125000 := by
  unfold Safety.Waits
  refine ⟨?_, ?_, ?_, ?_, ?_, ?_, ?_, ?_, ?_, ?_, ?_⟩ <;> decide

set_option maxRecDepth 20000 in
/-- Witnesses for LifeCycleMoves: LOCK of an owned drive by the management function, from its first check to its end. -/
theorem test_wit_lc :
    let d := mgmtDesc 0x78 2
    let s0 := ownedState .running d
    let s : State := { s0 with update := { s0.update with session := .idle } }
    let i : Intent := { frm := .owned, to_ := .locked, k := 2, tick := 0, value := [] }
    let z : State := { s with secure := { s.secure with intent := some i, lcDesc := some 1 } }
    Safety.Waits s 1 0x78 d ∧ s.secure.lc = .owned ∧ lcOfTarget (d.bitsOf 3 0) = some .locked ∧ s.secure.lcRunning = false ∧
      lcIssuer .owned .locked d.fn = true ∧ d.value.length = lcLength .owned .locked ∧ s.lcReady .owned .locked = true ∧
      s.secure.pairFor .locked = some 1 ∧ s.lcCheck5 .owned .locked 1 d.value = none ∧
      z.secure.intent = some i ∧ z.secure.lcDesc = some 1 := by
  unfold Safety.Waits
  refine ⟨?_, ?_, ?_, ?_, ?_, ?_, ?_, ?_, ?_, ?_, ?_⟩ <;> decide

set_option maxRecDepth 20000 in
/-- Witnesses for UpdatesAreReceived: the session's gates, a block and a commit under way, and a session to end. -/
theorem test_wit_update :
    let s (op : Nat) (x : Session) : State :=
      let b := ownedState .running (mgmtDesc op 0)
      { b with power := { b.power with energy := 24000, leverOpen := false }, update := { b.update with session := x } }
    let m : Bytes := [6#8, 6#8, 0#8, 1#8] ++ List.replicate 508 0#8
    let d : Desc := { mgmtDesc 0x80 0 with value := m, total := 512 }
    let r : State := { s 0x82 .receiving with update := { (s 0x82 .receiving).update with
      stage := { manifest := m, blocks := [] }, received := [0], blockDescs := [(1, 0, [])], commits := [1] } }
    Safety.Waits { s 0x80 .idle with descs := [d] } 1 0x80 d ∧ (s 0x80 .idle).updateGate .idle true = none ∧
      manifestBlocks m = 1 ∧ m.length = 512 ∧ r.updateGate .receiving false = none ∧
      Safety.Waits r 1 0x82 (mgmtDesc 0x82 0) ∧ r.update.inSession .receiving = true ∧
      Safety.Waits (s 0x83 .committed) 1 0x83 (mgmtDesc 0x83 0) ∧ (s 0x83 .committed).updateGate .committed true = none ∧
      (s 0x83 .committed).update.endable = true ∧
      ({ r with update := { r.update with stage := Image.empty } } : State).commitFault = some (1, none) := by
  unfold Safety.Waits
  refine ⟨?_, ?_, ?_, ?_, ?_, ?_, ?_, ?_, ?_, ?_, ?_⟩ <;> decide

/-- Witnesses for UpdatesAreConfirmed: the last tick before the deadline. -/
theorem test_wit_confirm :
    let b := ownedState .running (mgmtDesc 0x84 0)
    let s : State := { b with tick := 7500099, update := { b.update with session := .unconfirmed, selfTestOk := true, testedAt := some 100 } }
    Safety.Waits s 1 0x84 (mgmtDesc 0x84 0) ∧ s.update.session = .unconfirmed ∧ s.tick < 100 + 7500000 ∧
      s.update.halterDue s.tick .notServed = true := by
  unfold Safety.Waits
  refine ⟨?_, ?_, ?_, ?_⟩ <;> decide

/-- A requester with one transfer, of a credit. -/
def reqOf (k : Int) (u : Option Nat) : Requester := { Requester.idle with k := k, flows := [{ Flow.new (some 1) 0 262144 true with urgent := u }] }

/-- Channel 0 with requesters 0 and 1. -/
def chanState (owner : Option Nat) (k : Int) (u : Option Nat) : State :=
  { openState with cinch := { Cinch.reset with
    preemptEn := true
    chans := { owner := owner, beats := 0, reqs := [reqOf 0 none, reqOf k u] ++ List.replicate 33 Requester.idle } ::
      (Cinch.reset.chans.drop 1) } }

/-- Witnesses for CinchArbitrates: a free channel, an urgent candidate, and a lead above the margin. -/
theorem test_wit_cinch :
    let g := chanState none 5 none
    let u := chanState (some 0) 5 (some 7)
    let p := chanState (some 0) 262144 none
    g.candidate (g.chan 0) = some (1, 2) ∧ (g.chan 0).owner = none ∧ oldestUrgent (u.chan 0) (u.eligible (u.chan 0)) = some 1 ∧
      ((u.chan 0).req 0).flows = Flow.new (some 1) 0 262144 true :: [] ∧
      oldestUrgent (p.chan 0) (p.eligible (p.chan 0)) = none ∧
      highestCredit (p.chan 0) ((p.eligible (p.chan 0)).filter (fun r => ((p.chan 0).req r).b == 0)) = some 1 ∧
      (beatsToLoss 262144 0 p.cinch.margin).any (fun j => j ≤ (p.chan 0).pace - (p.chan 0).beats) = true ∧
      (beatsToLoss 262144 0 p.cinch.margin).any (fun j => j < (Flow.new (some 1) 0 262144 true).left) = true ∧
      p.masked 1 = false ∧
      ((p.chan 0).req 1).flows.any (fun f : Flow => f.urgent.isNone) = true ∧
      (let z := p.modChan 0 (fun c => c.modReq 1 (fun q => { q with starve := 1250000 }))
       z.cinch.starveTicks ≤ ((z.chan 0).req 1).starve) := by
  refine ⟨?_, ?_, ?_, ?_, ?_, ?_, ?_, ?_, ?_, ?_, ?_⟩ <;> decide

/-- Witnesses for WordMemory: the last word of MRAM, written whole and in part, and the first byte past it. -/
theorem test_wit_words :
    (Mem.size .mram - 1 < Mem.size .mram ∧ 7 + 1 ≤ 8 ∧ 0 < 1) ∧ wordsWf upState.media.words = true ∧
      ¬ (Mem.size .mram < Mem.size .mram) ∧ readWord upState.media.words (Mem.word .mram 0) ≠ Cell.poisoned ∧
      readWord [(0, Cell.poisoned)] (Mem.word .sram 0) = Cell.poisoned := by decide

/-- Witnesses for MediaIsKept: a block due for refresh by its reads and one that takes its data, the oldest block in the first pass,
die 3 of channel 15, and the ticks at which the age counter and the copy are due. -/
theorem test_wit_media :
    let b : Block := { (default : Block) with id := ⟨0, 0⟩, pslc := true, reads := 200001, erased := false }
    let s : State := { upState with
      power := { upState.power with energy := 80 }
      media := { upState.media with blocks := [b, { (default : Block) with id := ⟨0, 1⟩, pslc := true, erased := true }], firstPass := true } }
    refreshCause s.media.age (s.media.block ⟨0, 0⟩) = some 0x178 ∧ s.dark = false ∧ s.power.programLimit ≠ 0 ∧
      s.media.takes (s.media.block ⟨0, 0⟩) (s.media.block ⟨0, 1⟩) = true ∧ s.media.oldestFirst ⟨0, 0⟩ = true ∧
      3 < s.diesPerChannel ∧ s.media.retiredDies.contains (15, 3) = false ∧ s.media.ratedAt + 1250 ≤ 1250 ∧
      s.media.copiedAt + 450000000 ≤ 450000000 := by
  refine ⟨?_, ?_, ?_, ?_, ?_, ?_, ?_, ?_, ?_⟩ <;> decide

/-- Witnesses for LoopsAdapt at the boundaries of its conditions. -/
theorem test_wit_loops :
    let s : State := { upState with tick := 125100, power := { upState.power with vfStep := 16, vfGood := 1250, vfSafe := none } }
    s.power.reducedAt + 1250 ≤ s.tick ∧ 125000 ≤ ({ Lane.reset with lowFor := 125000 } : Lane).lowFor ∧ (19 : Int) < 20 ∧ s.power.vfSafe = none ∧ 12 < s.power.vfStep ∧ s.power.vfStep < s.power.stepCap ∧
      100 + 125000 ≤ s.tick ∧ 2700 < 2701 ∧ 2499 < 2500 ∧ s.power.thermal = false ∧ (79 : Int) < 80 := by decide

/-- Witnesses for PowerAndPins: the powered drive, the unpowered one, PWR_DIS high, and thermal hold. -/
theorem test_wit_pins :
    let p (rails : Rails) (good dis : Bool) : Power := { upState.power with rails := rails, supplyGood := good, pwrDis := dis, leverOpen := false, charging := false }
    (p .on true false).rails = .on ∧ (p .on true false).supplyGood = true ∧ (p .off false false).supplyGood = false ∧
      (p .off true true).pwrDis = true ∧ (95 : Int) ≤ 95 ∧ (p .thermalHold true false).rails = .thermalHold ∧
      (p .on true false).leverOpen = false ∧ (p .on true false).actUntil ≤ upState.tick ∧
      (p .on true false).charging = false ∧ (p .on true false).measureDue ≤ upState.tick ∧
      (p .on true false).powerHigh = false ∧ upState.awl.loading = none ∧ upState.secure.intent = none ∧
      upState.power.charging = true := by decide

/-- Witnesses for ResetsAndStartUp. -/
theorem test_wit_resets :
    let w : State := { upState with boot := { upState.boot with phase := 9, pending := some (2, 1) } }
    upState.power.rails = .on ∧ 9 ≤ w.boot.phase ∧ w.boot.pending = some (2, 1) ∧
      bits (0x53560000#32).toNat 31 16 = 0x5356 ∧
      (let u : State := { upState with
        boot := { upState.boot with phase := 0, pending := none }
        power := { upState.power with resetN := true, supplyGood := true, pwrDis := false } }
       u.mayStart = true) := by decide

/-- Witnesses for CountersStopAtTheTop: a drive counter at its top, read on either path. -/
theorem test_wit_counter :
    let s : State := { upState with counters := [(0x00000100, 2 ^ 48 - 1)] }
    s.counter 0x00000100 < 2 ^ 48 ∧ s.counter 0x00000100 = 2 ^ 48 - 1 ∧ counterAt 0x00000100 = some (0x00000100, true) ∧
      pathReaches .mgmt 0x00000100 = true ∧ pathReaches .smbus 0x00000100 = true ∧ s.pageAbsent 0x00000100 = false := by decide

/-- Witnesses for RegistersAreReadAndWritten: one word read and written, and the tick count's pair. -/
theorem test_wit_registers :
    let r := mgmtDesc 0x70 (2 ^ 32 + 0x00000044)
    let w : Desc := { mgmtDesc 0x71 (2 ^ 32 + 0x000B0008) with value := [60#8, 0#8, 0#8, 0#8], total := 4 }
    Safety.Waits (ownedState .running r) 1 0x70 r ∧ Safety.Waits (ownedState .running w) 1 0x71 w ∧
      upState.pairAt 0x00000044 = some (upState.tick, 32) ∧ pathReaches .smbus 0x00000044 = true ∧
      upState.pageAbsent 0x00000044 = false ∧ 50 ≤ bits (50#32).toNat 7 0 ∧ bits (70#32).toNat 7 0 ≤ 70 ∧
      bits (49#32).toNat 7 0 < 50 ∧ 4096 ≤ (4096#32).toNat := by
  unfold Safety.Waits
  refine ⟨?_, ?_, ?_, ?_, ?_, ?_, ?_, ?_, ?_⟩ <;> decide

/-- Witnesses for SmbusTransactions: pointers at the last words of the two blocks, and just outside. -/
theorem test_wit_smbus :
    let s (p k : Nat) : State := { upState with smbus := { upState.smbus with ptr := p, count := k } }
    (s 0 8).power.supplyGood = true ∧ pathReaches .smbus 0x0000FFFC = true ∧ pathReaches .smbus 0x000BFFFC = true ∧
      pathReaches .smbus 0x00010000 = false ∧ (s 0x000B0000 8).smbus.count ≤ 8 ∧ (s 0x38 1).smbus.ptr = 0x00000038 ∧
      leNat [0xFC#8, 0xFF#8, 0x0B#8, 0#8] = 0x000BFFFC := by decide

/-- A configuration record of two members, 0 and 1, whose set 1 is both. -/
def cfgRec (epoch : Nat) : Bytes :=
  List.replicate 16 1#8 ++ toBe 4 epoch ++ [2#8, 1#8, 0#8, 0#8] ++ [0#8, 1#8] ++ List.replicate 10 0xFF#8 ++
    List.replicate 12 0#8 ++ [0#8, 3#8] ++ List.replicate 46 0#8

/-- A drive of a span state, member 0 of that span with member 1. -/
def spanState (st : SpanState) (d : Desc) : State :=
  let b := ownedState .running d
  { b with span := { Span.reset with
    state := st, me := 0, cfg := some (cfgRec 1), present := [0, 1], master := 0, staged := cfgRec 2 } }

set_option maxRecDepth 20000 in
/-- Witnesses for SpanMembership. -/
theorem test_wit_span :
    let j : Desc := { mgmtDesc 0x90 0 with value := cfgRec 1, total := 96 }
    let l := mgmtDesc 0x91 0
    let q := mgmtDesc 0x92 0
    let s := ownedState .running j
    Safety.Waits s 1 0x90 j ∧ s.span.state = .none ∧ s.secure.lc = .owned ∧ cfgValid (cfgRec 1) = true ∧
      (cfgRing (cfgRec 1)).contains 0 = true ∧ byteAt (cfgRec 1) 80 = s.level.1 ∧ s.secure.rebindSpent < 32 ∧
      Safety.Waits (spanState .member l) 1 0x91 l ∧ Safety.Waits (spanState .outside l) 1 0x91 l ∧
      Safety.Waits (spanState .member q) 1 0x92 q ∧
      (cfgIdentity (cfgRec 2) = cfgIdentity (spanState .member l).span.record ∧
        cfgEpoch (cfgRec 2) = cfgEpoch (spanState .member l).span.record + 1 ∧ cfgValid (cfgRec 2) = true) ∧
      cfgIdentity (List.replicate 96 0#8) ≠ cfgIdentity (cfgRec 1) := by
  unfold Safety.Waits
  refine ⟨?_, ?_, ?_, ?_, ?_, ?_, ?_, ?_, ?_, ?_, ?_, ?_⟩ <;> decide

/-- A ring frame of a type from member 1 to all, with an empty body of a length, and a serving member that hears it. -/
def ringFrame (type len : Nat) : RingFrame :=
  { type := type, flags := 0, source := 1, target := 0xFF, body := List.replicate len 0#8 }

def ringState : State :=
  let b := spanState .member (mgmtDesc 0x92 0)
  { b with boot := { b.boot with phase := 9 } }

set_option maxRecDepth 20000 in
/-- Witnesses for RingFramesAreHeard: frames of the types that run in each direction, and one too short. -/
theorem test_wit_ring :
    (∀ t ∈ [1, 2, 3, 5, 6, 7, 8], Safety.Heard ringState .up (ringFrame t 16).bytes t (ringFrame t 16)) ∧
      (∀ t ∈ [4, 9, 10, 11, 12, 13], Safety.Heard ringState .dn (ringFrame t 16).bytes t (ringFrame t 16)) ∧
      ringState.span.inOrder = true ∧
      (match parseRing [] with
        | .error b => b
        | .ok _ => true) = false ∧ ringState.serving = true := by
  unfold Safety.Heard
  refine ⟨?_, ?_, ?_, ?_, ?_⟩ <;> decide

/-- Their clauses on the span: an incomplete batch of member 1, a held one, and the farthest member's echo. -/
theorem test_wit_ring_span :
    let x := ringState.span
    let e : BEntry := systemEntry 8 none 0 0 1 []
    x.lastHop = 0 ∧ x.loopDelay ≤ 4000 ∧ x.me = x.master ∧ x.system = [] ∧ x.joins.contains 1 = false ∧
      (({ x with batches := [Batch.empty 0 0 1] } : Span).findBatch 0 1).isSome = true ∧
      (({ x with batches := [{ Batch.empty 0 0 1 with complete := true, entries := [e] }] } : Span).heldBatch 0).isSome = true := by
  decide

/-- Member 0 of a span of two in its slot, with one batch and one report. -/
def slotState : State :=
  let b : Batch := { Batch.empty 0 0 0 with complete := true, committed := 2#16, covered := true }
  let c : Batch := { Batch.empty 5 0 1 with covered := true, repair := some 0 }
  { ringState with span := { ringState.span with
    inSlot := true, slotAt := some 100, rotation := 2, batches := [b, c], rein := some (List.replicate 200 0#8), orderNext := 10
    reports := [{ rot := 1, kind := 1, set := 1, who := 1, index := 0, digest := [] }], silent := [(1, 2)] } }

set_option maxRecDepth 20000 in
/-- Witnesses for SlotsAndRotations. -/
theorem test_wit_slots :
    slotState.span.inOrder = true ∧ slotState.span.present.contains slotState.span.me = true ∧
      slotState.span.predecessor 0 = 1 ∧ slotState.span.splitOff = false ∧
      (assoc slotState.span.silent (slotState.span.predecessor 0)).isSome = true ∧
      slotState.span.present.contains 1 = true ∧ min 3 ((assoc slotState.span.silent 1).getD 0 + 1) = 3 ∧
      slotState.span.batches.any (fun b => b.first == 0 && b.committed.getLsbD 1 && b.origin == slotState.span.me) = true ∧
      (slotState.span.batches.find? (fun b => b.first == 5 && b.covered && !b.complete &&
        b.repair.elim false (fun r => r + 2 ≤ slotState.span.rotation))).isSome = true ∧
      (slotState.span.turned slotState.setVersions).present.contains slotState.span.me = true ∧
      ((slotState.span.rotStart + slotState.span.rotationTicks : Nat) : Int) ≤ slotState.spanTick := by
  refine ⟨?_, ?_, ?_, ?_, ?_, ?_, ?_, ?_, ?_, ?_, ?_⟩ <;> decide

/-- The clauses on the start and the close of a slot, on a predecessor heard of, and on the first rotation. -/
theorem test_wit_slot_edges :
    let a : State := { slotState with span := { slotState.span with inSlot := false, slotAt := none, reinHere := true, slotTick := 100 } }
    let w : State := { slotState with span := { slotState.span with reinHere := true, windowOpen := true } }
    let q : Span := { slotState.span with silent := [], batches := [] }
    let j : Joining := { desc := some 1, began := 100, probed := false, reqSent := false }
    let o : Span := { slotState.span with state := .joining, rein := none, join := some j }
    (a.span.slotAt ≠ some a.slotNow ∧ (a.slotNow : Int) ≤ a.spanTick ∧ a.spanTick < (a.slotNow : Int) + a.span.slotLen) ∧
      (w.span.forfeiting = false ∧ ((w.span.slotAt.getD 0 + w.span.slotLen : Nat) : Int) ≤ w.spanTick + 1) ∧
      ((assoc q.silent (q.predecessor 0)).isSome = false ∧ slotState.span.regen = false ∧ slotState.span.reinHere = false) ∧
      (o.state = .joining ∧ o.rein = none ∧ o.join = some j ∧ j.desc = some 1) := by decide

/-- The floor's clause: a request whose first reply left long ago. -/
theorem test_wit_floor :
    let d : Desc := { aDesc 1 with phase := .floorWait, first := some 0 }
    let s : State := { openState with tick := 100, descs := [d] }
    s.desc 1 = some d ∧ 0 + s.span.rotationTicks + 2 ≤ s.tick := by decide

/-- Witnesses for RingLanes: the first rotation due for a PROBE, and a break whose lane has just held for its time. -/
theorem test_wit_lanes :
    let s : State := { slotState with tick := 125001, span := { slotState.span with
      rotation := 1000, wrapped := true, brokenUp := true, laneUp := { lock := true, since := 1 }, batches := [] } }
    s.span.inOrder = true ∧ s.span.probeLast + 1000 ≤ s.span.rotation ∧ slotState.span.wrapped = false ∧
      slotState.span.state ≠ .none ∧ slotState.span.brokenUp = false ∧ s.span.laneUp.since + 125000 ≤ s.tick ∧
      s.span.batches = [] ∧ upState.span.state = .none ∧ upState.span.laneUp.lock = false := by decide


end Sys2Proof.Tests
end

section
/-! PROOFS. Counters (R22, R23): what each counter reads after counting, after a read that clears, and the obligation
on both. -/
namespace Sys2Proof.Laws
open Sys2Proof Sys2Proof.Machine

/-! ### What a counter reads -/

/-- Raising by zero a counter at zero adds no entry to the list, and reads the same as putting a zero there. -/
theorem counter_bumpBy (s : State) (a n b : Nat) :
    (s.bumpBy a n).counter b = if a = b then min (s.counter a + n) (2 ^ 48 - 1) else s.counter b := by
  unfold State.bumpBy
  dsimp only
  split
  case isTrue hv =>
    have hzero : s.counter a = 0 := by omega
    split
    · subst b; omega
    · rfl
  case isFalse =>
    simp only [State.counter, assoc_insertSorted]
    split <;> rfl

theorem counter_bumpBy_same (s : State) (a n : Nat) :
    (s.bumpBy a n).counter a = min (s.counter a + n) (2 ^ 48 - 1) := by
  rw [counter_bumpBy, if_pos rfl]

theorem counter_bumpBy_ne (s : State) {a b : Nat} (n : Nat) (h : b ≠ a) : (s.bumpBy a n).counter b = s.counter b := by
  rw [counter_bumpBy, if_neg h.symm]

theorem counter_clearCounter (s : State) (a b : Nat) :
    (s.clearCounter a).counter b = if a = b then 0 else s.counter b := by
  simp only [State.counter, clearCounter_counters, assoc_eraseKey]
  split <;> rfl

@[simp] theorem counter_setLatch (s : State) (path : Path) (a v b : Nat) :
    (s.setLatch path a v).counter b = s.counter b := rfl

@[simp] theorem counter_shown (s : State) (path : Path) (v b : Nat) : (s.shown path v).counter b = s.counter b := by
  cases path <;> rfl

/-- A read clears the counter that it reads and no other (R22). -/
theorem counter_readCounter (s : State) (path : Path) (a b : Nat) :
    (s.readCounter path a).2.counter b = if a = b then 0 else s.counter b := by
  simp only [State.readCounter, counter_clearCounter, counter_setLatch]

/-! ### The read command -/

/-- COUNTER_LO_READ of a counter that the path reaches, on a page that is there: the read, then what the path shows. -/
theorem exec_counterLoRead_reached {s : State} {path : Path} {a : Nat} (hlo : counterAt a = some (a, true))
    (hpath : pathReaches path a = true) (hpage : s.pageAbsent a = false) :
    exec (.counterLoRead path a) s = .next ((s.readCounter path a).2.shown path (s.readCounter path a).1) := by
  change execCounterLoRead path a s = _
  simp [execCounterLoRead, hlo, hpath, hpage]

/-! ### The obligation -/

/-- Settles O54: counting is `counter_bumpBy`, and the read that ends the stop is `counter_readCounter`. The sum is capped
for every value of a counter, so the premise that the counter is in range is not needed. -/
theorem countersStopAtTheTop : Obligations.CountersStopAtTheTop := by
  unfold Obligations.CountersStopAtTheTop
  intro s a n _
  refine ⟨counter_bumpBy_same s a n, fun b hb => counter_bumpBy_ne s n hb, fun htop => ?_,
    fun path hlo hpath hpage => ⟨_, exec_counterLoRead_reached hlo hpath hpage, ?_, fun hn => ?_, fun b hb => ?_⟩⟩
  · rw [counter_bumpBy_same, htop]; omega
  · rw [counter_shown, counter_readCounter, if_pos rfl]
  · rw [counter_bumpBy_same, counter_shown, counter_readCounter, if_pos rfl]; omega
  · rw [counter_shown, counter_readCounter, if_neg hb.symm]

end Sys2Proof.Laws
end

section
/-! PROOFS. Collation tables (R27 to R29): a table is a permutation exactly when its 256 bytes are all the bytes in some
order, so a byte is told from another by its weight, and a key from another by its weight string. -/
namespace Sys2Proof.Laws
open Sys2Proof Sys2Proof.Machine

/-! ### Permutations of the bytes -/

/-- The values 0 to 255, in order. -/
def allBytes : Bytes := (List.range 256).map (BitVec.ofNat 8)

@[simp] theorem length_allBytes : allBytes.length = 256 := by simp [allBytes]

theorem nodup_allBytes : allBytes.Nodup := by
  refine List.Nodup.map_on (fun i hi j hj hij => ?_) List.nodup_range
  rw [List.mem_range] at hi hj
  have hval := congrArg BitVec.toNat hij
  rw [BitVec.toNat_ofNat, BitVec.toNat_ofNat] at hval
  omega

/-- The model counts a table's bytes and looks for each value among them. Since `allBytes` repeats none, that is to say that
the table holds them in some order. -/
theorem isPermutation_iff_perm (tab : Bytes) : isPermutation tab = true ↔ tab.Perm allBytes := by
  have hcheck : isPermutation tab = true ↔ tab.length = 256 ∧ allBytes ⊆ tab := by
    simp [isPermutation, allBytes, List.subset_def]
  rw [hcheck]
  constructor
  · rintro ⟨hlen, hsub⟩
    have hle : tab.length ≤ allBytes.length := by rw [hlen, length_allBytes]
    exact ((nodup_allBytes.subperm hsub).perm_of_length_le hle).symm
  · intro hperm
    exact ⟨hperm.length_eq.trans length_allBytes, hperm.symm.subset⟩

theorem isPermutation_length {tab : Bytes} (h : isPermutation tab = true) : tab.length = 256 :=
  ((isPermutation_iff_perm tab).mp h).length_eq.trans length_allBytes

theorem isPermutation_nodup {tab : Bytes} (h : isPermutation tab = true) : tab.Nodup :=
  ((isPermutation_iff_perm tab).mp h).nodup_iff.mpr nodup_allBytes

/-- A permutation holds no byte at two places. -/
theorem isPermutation_getD_inj {tab : Bytes} (h : isPermutation tab = true) {i j : Nat} (hi : i < 256) (hj : j < 256)
    (hij : tab.getD i 0 = tab.getD j 0) : i = j := by
  have hlen := isPermutation_length h
  rw [List.getD_eq_getElem _ _ (by omega), List.getD_eq_getElem _ _ (by omega)] at hij
  exact (isPermutation_nodup h).getElem_inj_iff.mp hij

/-! ### Comparison of keys -/

theorem cmpWeights_eq_iff (a b : List Nat) : cmpWeights a b = .eq ↔ a = b := by
  induction a generalizing b with
  | nil => cases b <;> simp [cmpWeights]
  | cons x xs ih =>
    cases b with
    | nil => simp [cmpWeights]
    | cons y ys =>
      rcases lt_trichotomy x y with hlt | rfl | hgt
      · simp [cmpWeights, hlt, hlt.ne]
      · simp [cmpWeights, ih]
      · simp [cmpWeights, hgt, hgt.not_gt, hgt.ne']

/-- Keys compare equal under a collation exactly when their weight strings are the same (R28). -/
theorem cmpKeys_eq_iff (coll : Option Bytes) (a b : Bytes) : cmpKeys coll a b = .eq ↔ weights coll a = weights coll b :=
  cmpWeights_eq_iff _ _

/-- Under a permutation no two bytes have one weight (R29). -/
theorem weight_injective {tab : Bytes} (h : isPermutation tab = true) : Function.Injective (weight (some tab)) := by
  intro x y hxy
  have hbyte : tab.getD x.toNat 0 = tab.getD y.toNat 0 := BitVec.eq_of_toNat_eq hxy
  exact BitVec.eq_of_toNat_eq (isPermutation_getD_inj h x.isLt y.isLt hbyte)

theorem weights_injective {tab : Bytes} (h : isPermutation tab = true) : Function.Injective (weights (some tab)) :=
  List.map_injective_iff.mpr (weight_injective h)

/-! ### The load of a table that is none -/

/-- RULE_LOAD refuses a table that is no permutation once the target's state and the image have passed (R341 step 2). -/
theorem serveRuleLoad_collationInvalid {s : State} {d : Desc} {tab : Bytes}
    (hbusy : (s.tenant (d.bitsOf 5 0)).state ≠ .busy) (himage : s.imageFault (d.bitsOf 5 0) (loadParts d).2 = none)
    (htab : (loadParts d).1 = some tab) (hperm : isPermutation tab = false) :
    s.serveRuleLoad d = s.refuse d.id .collationInvalid 0 := by
  simp [State.serveRuleLoad, hbusy, himage, htab, hperm]

theorem waits_id {s : State} {id op : Nat} {d : Desc} (h : Safety.Waits s id op d) : d.id = id := by
  obtain ⟨hdesc, _⟩ := h
  exact desc_id hdesc

theorem exec_ruleLoad_waits {s : State} {id : Nat} {d : Desc} (h : Safety.Waits s id 0x77 d) :
    exec (.ruleLoad id) s = .next (s.serveRuleLoad d) :=
  congrArg Host.Outcome.next (serve_waits h _)

/-! ### The obligation -/

/-- Settles O43: a permutation repeats no byte, which refuses the table of the first clause and makes weight strings
injective for the third; the second is RULE_LOAD's check of the table. -/
theorem collationIsAPermutation : Obligations.CollationIsAPermutation := by
  unfold Obligations.CollationIsAPermutation
  refine ⟨fun tab i j _ hij hj heq => ?_, fun s id d tab hwaits hbusy himage htab hperm => ?_, fun tab a b hperm => ?_⟩
  · rw [← Bool.not_eq_true]
    intro hperm
    exact hij.ne (isPermutation_getD_inj hperm (hij.trans hj) hj heq)
  · rw [exec_ruleLoad_waits hwaits, serveRuleLoad_collationInvalid hbusy himage htab hperm, waits_id hwaits]
  · rw [cmpKeys_eq_iff, (weights_injective hperm).eq_iff]

end Sys2Proof.Laws
end

section
/-! PROOFS. Step 1 of a received frame (R253): the first check of Table 6.2 that fails, as a function; what a port that
receives does by it; and the obligation StepOneDropsFrames. -/
namespace Sys2Proof.Laws
open Sys2Proof Sys2Proof.Machine

/-! ### The first check that fails -/

/-- The counter, by its offset in the port's block, of the first check of step 1 that a frame fails, in the order of Table
6.2: RX_OVF, RX_LONG, RX_SHORT, RX_FCS. -/
def stepOneFault (q : PortState) (first : Nat) (frame : Bytes) : Option Nat :=
  if q.admits first = false then some 0x120
  else if 9216 < frame.length then some 0x110
  else if frame.length < 64 then some 0x118
  else if leNat (frame.drop (frame.length - 4)) ≠ fcsOf (frame.take (frame.length - 4)) then some 0x108
  else none

section
variable {q : PortState} {first : Nat} {frame : Bytes}

theorem stepOneFault_overflow (hadm : q.admits first = false) : stepOneFault q first frame = some 0x120 :=
  if_pos hadm

theorem stepOneFault_long (hadm : q.admits first = true) (hlong : 9216 < frame.length) :
    stepOneFault q first frame = some 0x110 := by
  simp [stepOneFault, hadm, hlong]

theorem stepOneFault_short (hadm : q.admits first = true) (hshort : frame.length < 64) :
    stepOneFault q first frame = some 0x118 := by
  have hnotLong : ¬ 9216 < frame.length := by omega
  simp [stepOneFault, hadm, hnotLong, hshort]

theorem stepOneFault_fcs (hadm : q.admits first = true) (hmin : 64 ≤ frame.length) (hmax : frame.length ≤ 9216)
    (hfcs : leNat (frame.drop (frame.length - 4)) ≠ fcsOf (frame.take (frame.length - 4))) :
    stepOneFault q first frame = some 0x108 := by
  simp [stepOneFault, hadm, hmin.not_gt, hmax.not_gt, hfcs]

end

/-! ### A port that receives -/

/-- A port that receives leaves low-power idle; then a frame that fails step 1 is counted and dropped, and any other goes on
to be sorted. -/
theorem frameArrives_receiving {s : State} {p : Port} (frame : Bytes) (pos dur : Nat)
    (hserving : s.serving = true) (hup : (s.port p).up = true) (henabled : (s.port p).ctl 0 = true) :
    s.frameArrives p frame pos dur =
      (stepOneFault (s.port p) (s.tick * 8000 + pos - dur) frame).elim
        ((s.modPort p (fun q => q.wake s.tick)).sortFrame p (frame.take (frame.length - 4)) (s.tick * 8000 + pos - dur)
          (s.tick * 8000 + pos))
        ((s.modPort p (fun q => q.wake s.tick)).bumpPort p) := by
  have hreceives : (!s.serving || !(s.port p).up || !(s.port p).ctrl.getLsbD 0) = false := by
    rw [hserving, hup, show (s.port p).ctrl.getLsbD 0 = true from henabled]
    rfl
  simp only [State.frameArrives, hreceives, Bool.false_eq_true, if_false, stepOneFault, Bool.not_eq_true', gt_iff_lt]
  split_ifs <;> rfl

/-- A frame that fails step 1 on a port that receives is counted once and dropped whole (R253). -/
theorem exec_hostFrameReceive_dropped {s : State} {p : Port} {frame : Bytes} {pos dur off : Nat}
    (hserving : s.serving = true) (hup : (s.port p).up = true) (henabled : (s.port p).ctl 0 = true)
    (hfault : stepOneFault (s.port p) (s.tick * 8000 + pos - dur) frame = some off) :
    exec (.hostFrameReceive p frame pos dur) s =
      .next ((s.modPort p (fun q => q.wake s.tick)).bump (portBase p + off)) := by
  show Host.Outcome.next (s.frameArrives p frame pos dur) = _
  rw [frameArrives_receiving frame pos dur hserving hup henabled, hfault]
  rfl

/-! ### The obligation -/

/-- Settles O12: each clause names the first check of step 1 that fails, and `exec_hostFrameReceive_dropped` says what that
counts. -/
theorem stepOneDropsFrames : Obligations.StepOneDropsFrames := by
  unfold Obligations.StepOneDropsFrames
  intro s p frame pos dur hserving hup henabled
  refine ⟨fun hadm => ?_, fun hadm hlong => ?_, fun hadm hshort => ?_, fun hadm hmin hmax hfcs => ?_⟩
  · exact exec_hostFrameReceive_dropped hserving hup henabled (stepOneFault_overflow hadm)
  · exact exec_hostFrameReceive_dropped hserving hup henabled (stepOneFault_long hadm hlong)
  · exact exec_hostFrameReceive_dropped hserving hup henabled (stepOneFault_short hadm hshort)
  · exact exec_hostFrameReceive_dropped hserving hup henabled (stepOneFault_fcs hadm hmin hmax hfcs)

end Sys2Proof.Laws
end

section
/-! PROOFS. The step of the block (assumption log 1): what it runs, what it keeps, and the state that it starts from. -/
namespace Sys2Proof.Laws
open Sys2Proof Sys2Proof.Machine

/-! ### The two branches of a step -/

/-- A step runs the front command on the drive with the queue's rest. -/
theorem step_cons {s : State} {c : Instr} {rest : List Instr} (h : s.pending = c :: rest) :
    step s = exec c { s with pending := rest } := by
  simp only [step, h]

/-- A step on an empty queue passes one tick. -/
theorem step_nil {s : State} (h : s.pending = []) : step s = .next s.tickPasses := by
  simp only [step, h]

/-! ### One tick -/

/-- Adapting the lanes draws free values and moves the lanes' equalisation, nothing else. -/
theorem adaptLanes_only (s : State) : ∃ n x, s.adaptLanes = { s with free := n, power := x } := by
  unfold State.adaptLanes
  split
  · exact ⟨_, _, rfl⟩
  · exact ⟨s.free, s.power, rfl⟩

/-- A port's corrected and uncorrectable codewords draw a free value and are counted, nothing else. -/
theorem tickFec_only (s : State) (p : Port) : ∃ n c, s.tickFec p = { s with free := n, counters := c } := by
  unfold State.tickFec
  dsimp only
  split
  · obtain ⟨c, hc⟩ := bumpBy_only { s with free := s.free + 1 } (portBase p + 0x1B0)
      (Config.openValue s.free 16 % (40 - Config.openValue s.free 15 % 40))
    obtain ⟨c', hc'⟩ := bumpBy_only { s with free := s.free + 1, counters := c } (portBase p + 0x1B8)
      (Config.openValue s.free 15 % 40)
    exact ⟨s.free + 1, c', by rw [hc, hc']⟩
  · exact ⟨s.free, s.counters, rfl⟩

/-- A tick of a drive with its rails on: the clocks, the ageing, the fuses and the ring's transmitters by their own
functions; the tenants, the power loops, the events, the free values and the counters as they may; nothing else. -/
theorem tickPasses_only {s : State} (hdark : s.dark = false) : ∃ tn pw ev n c, s.tickPasses = { s with
    tick := s.tick + 1, tenants := tn, ledger := s.ledger.tickWall, media := s.media.tickAge s.power.td, power := pw,
    secure := s.secure.tickFuses (s.tick + 1), span := s.span.drain, events := ev, free := n, counters := c } := by
  unfold State.tickPasses
  simp only [hdark, Bool.false_eq_true, if_false]
  generalize hs0 : ({ s with
      tick := s.tick + 1
      tenants := s.tenants.mapIdx s.tickTenant
      ledger := s.ledger.tickWall
      media := s.media.tickAge s.power.td
      power := s.power.tickCore
      secure := s.secure.tickFuses (s.tick + 1)
      span := s.span.drain } : State) = s0
  obtain ⟨tn, htn⟩ := tickBusy_only s0
  obtain ⟨n1, pw, hpw⟩ := adaptLanes_only s0.tickBusy
  obtain ⟨n2, c2, ha⟩ := tickFec_only s0.tickBusy.adaptLanes .a
  obtain ⟨n3, c3, hb⟩ := tickFec_only (s0.tickBusy.adaptLanes.tickFec .a) .b
  have hticked : (s0.tickBusy.adaptLanes.tickFec .a).tickFec .b =
      { s0 with tenants := tn, power := pw, free := n3, counters := c3 } := by
    rw [hb, ha, hpw, htn]
  rw [hticked]
  split
  · obtain ⟨c4, hc4⟩ := bumpBy_only ({ s0 with tenants := tn, power := pw, free := n3, counters := c3 } : State) 0x000B0210 1
    rw [State.bump, hc4, ← hs0]
    exact ⟨_, _, _, _, _, rfl⟩
  · rw [← hs0]
    exact ⟨_, _, _, _, _, rfl⟩

/-- Wall time that owes nothing and waits for nothing moves on by 8 µs (R170). -/
theorem tickWall_wall {x : Ledger} (hstall : x.stall = 0) (hslew : x.slewing = false) :
    x.tickWall.wall = (x.wall + 8) % 2 ^ 63 := by
  simp [Ledger.tickWall, hstall, hslew]

/-- With no frame waiting, a tick only takes its share of the two transmitters' backlogs (R185). -/
theorem drain_of_tx_nil {x : Span} (h : x.tx = []) :
    x.drain = { x with sentP := x.sentP - 25000, sentS := x.sentS - 25000 } := by
  obtain ⟨⟩ := x
  simp_all [Span.drain]

/-- With no transition under way and none just ended, a tick burns no row (R391). -/
theorem tickFuses_idle {x : Secure} {n : Nat} (hintent : x.intent = none) (hheld : x.lcHeld = none) :
    x.tickFuses n = x := by
  simp [Secure.tickFuses, hintent, hheld]

theorem dark_of_on {s : State} (h : s.power.rails = .on) : s.dark = false := by
  simp [State.dark, h]

/-! ### What every command keeps -/

/-- Every command keeps the queue, the identity, the tenant ids and the canonical forms: the arm of each command is in the
lemma of its meaning. -/
theorem exec_kept (s : State) : ∀ c : Instr, KeptO s (exec c s)
  | .hostFrameReceive .. => execHostFrameReceive_kept (.refl s)
  | .durableCeilingWrite .. => execDurableCeilingWrite_kept (.refl s)
  | .lldpduReceive .. => execLldpduReceive_kept (.refl s)
  | .partnerEeeTlvExpire .. => execPartnerEeeTlvExpire_kept (.refl s)
  | .lldpduSend .. => execLldpduSend_kept (.refl s)
  | .transmitLpiEnter .. => execTransmitLpiEnter_kept (.refl s)
  | .transmitFrame .. => execTransmitFrame_kept (.refl s)
  | .autoNegotiationComplete .. => execAutoNegotiationComplete_kept (.refl s)
  | .linkUp .. => execLinkUp_kept (.refl s)
  | .linkUpTimeout .. => execLinkUpTimeout_kept (.refl s)
  | .linkDown .. => execLinkDown_kept (.refl s)
  | .anRestart .. => execAnRestart_kept (.refl s)
  | .segmentContinue .. => execSegmentContinue_kept (.refl s)
  | .segmentLate .. => execSegmentLate_kept (.refl s)
  | .get .. => execGet_kept (.refl s)
  | .getGeneric .. => execGetGeneric_kept (.refl s)
  | .getHold .. => execGetHold_kept (.refl s)
  | .release .. => execRelease_kept (.refl s)
  | .put .. => execPut_kept (.refl s)
  | .putIfVersion .. => execPutIfVersion_kept (.refl s)
  | .rewrite .. => execRewrite_kept (.refl s)
  | .patch .. => execPatch_kept (.refl s)
  | .delete .. => execDelete_kept (.refl s)
  | .browseOpen .. => execBrowseOpen_kept (.refl s)
  | .browseNext .. => execBrowseNext_kept (.refl s)
  | .browsePrev .. => execBrowsePrev_kept (.refl s)
  | .browseClose .. => execBrowseClose_kept (.refl s)
  | .post .. => execPost_kept (.refl s)
  | .postingStage3 => execPostingStage3_kept (.refl s)
  | .postProgram .. => execPostProgram_kept (.refl s)
  | .programTreeRun => execProgramTreeRun_kept (.refl s)
  | .halt => execHalt_kept (.refl s)
  | .ldi .. => execLdi_kept (.refl s)
  | .ldc .. => execLdc_kept (.refl s)
  | .mov .. => execMov_kept (.refl s)
  | .add .. => execAdd_kept (.refl s)
  | .sub .. => execSub_kept (.refl s)
  | .mul .. => execMul_kept (.refl s)
  | .div .. => execDiv_kept (.refl s)
  | .rem .. => execRem_kept (.refl s)
  | .muldiv .. => execMuldiv_kept (.refl s)
  | .neg .. => execNeg_kept (.refl s)
  | .cmp .. => execCmp_kept (.refl s)
  | .br .. => execBr_kept (.refl s)
  | .ldbe .. => execLdbe_kept (.refl s)
  | .stbe .. => execStbe_kept (.refl s)
  | .ldpd .. => execLdpd_kept (.refl s)
  | .stpd .. => execStpd_kept (.refl s)
  | .ldzd .. => execLdzd_kept (.refl s)
  | .stzd .. => execStzd_kept (.refl s)
  | .len .. => execLen_kept (.refl s)
  | .setlen .. => execSetlen_kept (.refl s)
  | .read .. => execRead_kept (.refl s)
  | .write .. => execWrite_kept (.refl s)
  | .del .. => execDel_kept (.refl s)
  | .leg .. => execLeg_kept (.refl s)
  | .clk .. => execClk_kept (.refl s)
  | .call .. => execCall_kept (.refl s)
  | .fail .. => execFail_kept (.refl s)
  | .long .. => execLong_kept (.refl s)
  | .closeDay .. => execCloseDay_kept (.refl s)
  | .scan .. => execScan_kept (.refl s)
  | .scanCount .. => execScanCount_kept (.refl s)
  | .patternLoad .. => execPatternLoad_kept (.refl s)
  | .patternPersist .. => execPatternPersist_kept (.refl s)
  | .scanTimeLimit .. => execScanTimeLimit_kept (.refl s)
  | .verify .. => execVerify_kept (.refl s)
  | .setTime .. => execSetTime_kept (.refl s)
  | .slewEnd => execSlewEnd_kept (.refl s)
  | .query .. => execQuery_kept (.refl s)
  | .formatTenant .. => execFormatTenant_kept (.refl s)
  | .rekey .. => execRekey_kept (.refl s)
  | .compact .. => execCompact_kept (.refl s)
  | .longOperationComplete .. => execLongOperationComplete_kept (.refl s)
  | .mgmtRead .. => execMgmtRead_kept (.refl s)
  | .mgmtWrite .. => execMgmtWrite_kept (.refl s)
  | .registerWrite .. => execRegisterWrite_kept (.refl s)
  | .counterLoRead .. => execCounterLoRead_kept (.refl s)
  | .pairLRead .. => execPairLRead_kept (.refl s)
  | .functionReset .. => execFunctionReset_kept (.refl s)
  | .drainLimit .. => execDrainLimit_kept (.refl s)
  | .resetComplete .. => execResetComplete_kept (.refl s)
  | .wedgeLimit .. => execWedgeLimit_kept (.refl s)
  | .fullReset .. => execFullReset_kept (.refl s)
  | .tenantCreate .. => execTenantCreate_kept (.refl s)
  | .tenantResize .. => execTenantResize_kept (.refl s)
  | .tenantRemove .. => execTenantRemove_kept (.refl s)
  | .tenantStop .. => execTenantStop_kept (.refl s)
  | .tenantStart .. => execTenantStart_kept (.refl s)
  | .ruleLoad .. => execRuleLoad_kept (.refl s)
  | .lcTransition .. => execLcTransition_kept (.refl s)
  | .keyLoad .. => execKeyLoad_kept (.refl s)
  | .tkpGenErase .. => execTkpGenErase_kept (.refl s)
  | .lckTdaySet .. => execLckTdaySet_kept (.refl s)
  | .updBegin .. => execUpdBegin_kept (.refl s)
  | .updBlock .. => execUpdBlock_kept (.refl s)
  | .updCommit .. => execUpdCommit_kept (.refl s)
  | .updActivate .. => execUpdActivate_kept (.refl s)
  | .healthConfirm .. => execHealthConfirm_kept (.refl s)
  | .updAbort .. => execUpdAbort_kept (.refl s)
  | .updAbandoned => execUpdAbandoned_kept (.refl s)
  | .selfTestsPassed => execSelfTestsPassed_kept (.refl s)
  | .halterReset .. => execHalterReset_kept (.refl s)
  | .spanJoin .. => execSpanJoin_kept (.refl s)
  | .spanJoinTimeout => execSpanJoinTimeout_kept (.refl s)
  | .spanLeave .. => execSpanLeave_kept (.refl s)
  | .spanStatus .. => execSpanStatus_kept (.refl s)
  | .spnCfgGo => execSpnCfgGo_kept (.refl s)
  | .slotStart => execSlotStart_kept (.refl s)
  | .windowClose => execWindowClose_kept (.refl s)
  | .rein .. => execRein_kept (.refl s)
  | .reinRegenerate => execReinRegenerate_kept (.refl s)
  | .silentMember .. => execSilentMember_kept (.refl s)
  | .batch .. => execBatch_kept (.refl s)
  | .trailer .. => execTrailer_kept (.refl s)
  | .ack .. => execAck_kept (.refl s)
  | .batchCommit .. => execBatchCommit_kept (.refl s)
  | .digestReport .. => execDigestReport_kept (.refl s)
  | .rotationStart => execRotationStart_kept (.refl s)
  | .digestDecision => execDigestDecision_kept (.refl s)
  | .joinReq .. => execJoinReq_kept (.refl s)
  | .configXfer .. => execConfigXfer_kept (.refl s)
  | .probe .. => execProbe_kept (.refl s)
  | .probeEcho .. => execProbeEcho_kept (.refl s)
  | .probePeriod => execProbePeriod_kept (.refl s)
  | .batchReq .. => execBatchReq_kept (.refl s)
  | .batchResend .. => execBatchResend_kept (.refl s)
  | .batchRepairTimeout .. => execBatchRepairTimeout_kept (.refl s)
  | .resyncReq .. => execResyncReq_kept (.refl s)
  | .resyncData .. => execResyncData_kept (.refl s)
  | .ringLaneLoss .. => execRingLaneLoss_kept (.refl s)
  | .ringUnwrap => execRingUnwrap_kept (.refl s)
  | .floorTimeout .. => execFloorTimeout_kept (.refl s)
  | .holdExpire .. => execHoldExpire_kept (.refl s)
  | .cursorExpire .. => execCursorExpire_kept (.refl s)
  | .journalRecordComplete => execJournalRecordComplete_kept (.refl s)
  | .readComplete .. => execReadComplete_kept (.refl s)
  | .destageComplete => execDestageComplete_kept (.refl s)
  | .meteringPeriodClose .. => execMeteringPeriodClose_kept (.refl s)
  | .wallTimeJournal => execWallTimeJournal_kept (.refl s)
  | .tickCountJournal => execTickCountJournal_kept (.refl s)
  | .cinchCreditTick => execCinchCreditTick_kept (.refl s)
  | .cinchGrant .. => execCinchGrant_kept (.refl s)
  | .cinchPreempt .. => execCinchPreempt_kept (.refl s)
  | .transferUrgent .. => execTransferUrgent_kept (.refl s)
  | .cinchTransferEnd .. => execCinchTransferEnd_kept (.refl s)
  | .cinchStarved .. => execCinchStarved_kept (.refl s)
  | .burnisherWalk .. => execBurnisherWalk_kept (.refl s)
  | .blockRefresh .. => execBlockRefresh_kept (.refl s)
  | .ageCounterUpdate => execAgeCounterUpdate_kept (.refl s)
  | .dieRetire .. => execDieRetire_kept (.refl s)
  | .ruleParityError entry _ => execRuleParityError_kept (_entry := entry) (.refl s)
  | .automatonParityError .. => execAutomatonParityError_kept (.refl s)
  | .partialWordWrite .. => execPartialWordWrite_kept (.refl s)
  | .fabricBurstCut => execFabricBurstCut_kept (.refl s)
  | .lifetimeRecordCopy => execLifetimeRecordCopy_kept (.refl s)
  | .holdupMeasure .. => execHoldupMeasure_kept (.refl s)
  | .holdupChargeComplete .. => execHoldupChargeComplete_kept (.refl s)
  | .vfStepDown .. => execVfStepDown_kept (.refl s)
  | .vfStepUp .. => execVfStepUp_kept (.refl s)
  | .vfSafe .. => execVfSafe_kept (.refl s)
  | .vfSafeEnd => execVfSafeEnd_kept (.refl s)
  | .serdesMargin .. => execSerdesMargin_kept (.refl s)
  | .thermalLoopUpdate .. => execThermalLoopUpdate_kept (.refl s)
  | .powerLimit .. => execPowerLimit_kept (.refl s)
  | .thermalHigh .. => execThermalHigh_kept (.refl s)
  | .thermalOk .. => execThermalOk_kept (.refl s)
  | .thermalTrip .. => execThermalTrip_kept (.refl s)
  | .thermalHoldEnd => execThermalHoldEnd_kept (.refl s)
  | .powerFail .. => execPowerFail_kept (.refl s)
  | .powerGood => execPowerGood_kept (.refl s)
  | .pwrDisAssert => execPwrDisAssert_kept (.refl s)
  | .pwrDisRelease => execPwrDisRelease_kept (.refl s)
  | .resetNAssert => execResetNAssert_kept (.refl s)
  | .resetNRelease => execResetNRelease_kept (.refl s)
  | .leverOpen => execLeverOpen_kept (.refl s)
  | .glbResetController .. => execGlbResetController_kept (.refl s)
  | .glbResetDrive .. => execGlbResetDrive_kept (.refl s)
  | .glbResetPower .. => execGlbResetPower_kept (.refl s)
  | .resetBegin => execResetBegin_kept (.refl s)
  | .startUp .. => execStartUp_kept (.refl s)
  | .glbCfgSave .. => execGlbCfgSave_kept (.refl s)
  | .tickInQualified .. => execTickInQualified_kept (.refl s)
  | .tickLost .. => execTickLost_kept (.refl s)
  | .tackRemask .. => execTackRemask_kept (.refl s)
  | .tackParityError .. => execTackParityError_kept (.refl s)
  | .entropyReseed .. => execEntropyReseed_kept (.refl s)
  | .keyRecordPersist .. => execKeyRecordPersist_kept (.refl s)
  | .eventForm => execEventForm_kept (.refl s)
  | .smbSetPointer .. => execSmbSetPointer_kept (.refl s)
  | .smbBlockRead .. => execSmbBlockRead_kept (.refl s)
  | .smbWriteWord .. => execSmbWriteWord_kept (.refl s)
  | .smbReadFlags .. => execSmbReadFlags_kept (.refl s)
  | .smbAlertResponse => execSmbAlertResponse_kept (.refl s)
  | .ringLaneLock .. => execRingLaneLock_kept (.refl s)
  | .receiveLpiEnter .. => execReceiveLpiEnter_kept (.refl s)
  | .receiveLpiExit .. => execReceiveLpiExit_kept (.refl s)
  | .powerLimitRelease .. => execPowerLimitRelease_kept (.refl s)
  | .leverClose => execLeverClose_kept (.refl s)
  | .actNRelease => execActNRelease_kept (.refl s)
  | .tenantCreateComplete .. => execTenantCreateComplete_kept (.refl s)
  | .tenantRemoveComplete .. => execTenantRemoveComplete_kept (.refl s)
  | .lcTransitionDone => execLcTransitionDone_kept (.refl s)
  | .ruleLoadValidate => execRuleLoadValidate_kept (.refl s)
  | .keyLoadComplete => execKeyLoadComplete_kept (.refl s)
  | .updBlockComplete .. => execUpdBlockComplete_kept (.refl s)
  | .updCommitComplete => execUpdCommitComplete_kept (.refl s)

/-- What is kept carries soundness over. -/
theorem inv_of_kept {s t : State} (h : Kept s t) (hs : Safety.Inv s) : Safety.Inv t := by
  obtain ⟨_, _, htenants, hwords, hcounters⟩ := h
  obtain ⟨hw, hc, ht⟩ := hs
  exact ⟨hwords hw, hcounters hc, htenants.trans ht⟩

/-- Soundness does not speak of the queue. -/
theorem inv_pending {s : State} (q : List Instr) (hs : Safety.Inv s) : Safety.Inv { s with pending := q } := hs

/-! ### The obligations -/

/-- Settles O1: the second branch of the step. -/
theorem stepRunsFrontCommand : Obligations.StepRunsFrontCommand := by
  unfold Obligations.StepRunsFrontCommand
  intro c rest s
  exact step_cons rfl

/-- Settles O2: on an empty queue the step is a tick, which `tickPasses_only` says whole. -/
theorem emptyQueuePassesOneTick : Obligations.EmptyQueuePassesOneTick := by
  unfold Obligations.EmptyQueuePassesOneTick
  intro s hqueue hrails
  obtain ⟨tn, pw, ev, n, c, htick⟩ := tickPasses_only (dark_of_on hrails)
  rw [step_nil hqueue, htick]
  exact ⟨_, rfl, rfl, tickWall_wall, hqueue, rfl, rfl, rfl, drain_of_tx_nil, tickFuses_idle, rfl, rfl, rfl, rfl⟩

/-- Settles O3: both branches of a step keep what soundness speaks of, whatever command is at the front. -/
theorem stepKeepsInv : Obligations.StepKeepsInv := by
  unfold Obligations.StepKeepsInv
  intro s t hs hstep
  cases hq : s.pending with
  | nil =>
    rw [step_nil hq, Host.Outcome.next.injEq] at hstep
    exact inv_of_kept (hstep ▸ State.tickPasses_kept (.refl s)) hs
  | cons c rest =>
    rw [step_cons hq] at hstep
    exact inv_of_kept (exec_kept _ c t hstep) (inv_pending rest hs)

/-- Settles O4: a drive that has never run lists no word and no counter, and has its 32 tenant ids. -/
theorem resetIsSound : Obligations.ResetIsSound := by
  unfold Obligations.ResetIsSound
  exact ⟨rfl, rfl, rfl⟩

/-- Settles O5: the first three parts of what every command keeps. -/
theorem commandsKeepQueueAndIdentity : Obligations.CommandsKeepQueueAndIdentity := by
  unfold Obligations.CommandsKeepQueueAndIdentity
  intro c s t hexec
  obtain ⟨hqueue, hident, htenants, _⟩ := exec_kept s c t hexec
  exact ⟨hqueue, hident, htenants⟩

/-- Settles O6: each value is that of the reset state's field. -/
theorem resetValues : Obligations.ResetValues := by
  unfold Obligations.ResetValues
  exact ⟨fun p => by cases p <;> exact ⟨rfl, rfl, rfl, rfl⟩, rfl, rfl, rfl, rfl, rfl, rfl, rfl, rfl, rfl, rfl, rfl, rfl, rfl⟩

end Sys2Proof.Laws
end

section
/-! PROOFS. Host ports (chapter 6): negotiation, the link, low-power idle, LLDP, the transmitter, and events on their way
out. -/
namespace Sys2Proof.Laws
open Sys2Proof Sys2Proof.Machine

variable {s : State} {p : Port}

/-! ### A port under the shared operations -/

/-- Two drives with the same ports have the same port of a number. -/
theorem port_congr {s t : State} (ha : s.portA = t.portA) (hb : s.portB = t.portB) (p : Port) : s.port p = t.port p := by
  cases p
  · exact ha
  · exact hb

@[simp] theorem port_bump (s : State) (a : Nat) (p : Port) : (s.bump a).port p = s.port p :=
  port_congr (bump_portA s a) (bump_portB s a) p

@[simp] theorem port_bumpPort (s : State) (r : Port) (a : Nat) (p : Port) : (s.bumpPort r a).port p = s.port p :=
  port_congr (bumpPort_portA s r a) (bumpPort_portB s r a) p

@[simp] theorem macOf_modPort (s : State) (r p : Port) (f : PortState → PortState) :
    (s.modPort r f).macOf p = s.macOf p := by
  cases r <;> rfl

/-- A frame that is no first reply joins the bulk queue (R256). -/
theorem enqueue_bulk (q : PortState) (n : Nat) {f : OutFrame} (h : f.isFirst = false) :
    q.enqueue n [f] = { q.wake n with bulk := q.bulk ++ [f] } := by
  unfold PortState.enqueue PortState.wake
  split <;> simp [h]

/-! ### Negotiation and the link -/

/-- Clause 73 resolves 25GBASE-KR with RS-FEC where both have it and either side requests RS-FEC (R236, R237). -/
theorem exec_autoNegotiationComplete_kr25 {x : Partner} (hstart : (s.port p).anStart.isSome = true)
    (hdown : (s.port p).up = false) (hown : (s.port p).page.kr25 = true) (hpartner : x.kr25 = true)
    (hfec : x.noFec = false) (hrs : (s.port p).page.f2 = true ∨ x.f2 = true) :
    exec (.autoNegotiationComplete p x) s = .next (s.modPort p (fun q => { q with
      nullPages := x.np, an := some { speed := 2, fec := 2, eee := x.eee && q.page.eee } })) := by
  have hphy : resolvePhy (s.port p).page x = some (2, false) := by simp [resolvePhy, hown, hpartner]
  have hmode : resolveFec (s.port p).page x 2 false = 2 := by
    rcases hrs with h | h <;> simp [resolveFec, hfec, h]
  have hnone : (s.port p).anStart.isNone = false := by simpa [Option.isSome_iff_ne_none] using hstart
  show execAutoNegotiationComplete p x s = _
  simp [execAutoNegotiationComplete, hnone, hdown, hphy, hmode]

/-- A link that has been negotiated comes up on an enabled port (R238, R240). -/
theorem exec_linkUp_negotiated {a : AnResult} (han : (s.port p).an = some a) (hdown : (s.port p).up = false)
    (henabled : (s.port p).ctl 0 = true) :
    exec (.linkUp p) s = .next (((s.modPort p (fun q => { q with
      up := true, linkEvt := q.linkEvt ||| 2#4, anStart := none, idleSince := s.tick, lldpDue := true })).trainLane
        (portNo p)).raise 0x8002 (portNo p) a.speed 0) := by
  show execLinkUp p s = _
  simp [execLinkUp, han, hdown, henabled, PortState.speed]

/-- Negotiation that has run for 125,000 ticks without a link starts again (R238). -/
theorem exec_linkUpTimeout_due {t : Nat} (hstart : (s.port p).anStart = some t) (hdown : (s.port p).up = false)
    (hdue : t + 125000 ≤ s.tick) :
    exec (.linkUpTimeout p) s = .next (s.modPort p (fun q => q.negotiate s.tick false)) := by
  show execLinkUpTimeout p s = _
  simp [execLinkUpTimeout, hstart, hdown, hdue]

/-- Settles O7: Clause 73's outcome, the link's rise, and the restart, which on an enabled port takes a base page of CTRL. -/
theorem linkComesUp : Obligations.LinkComesUp := by
  unfold Obligations.LinkComesUp
  intro s p
  refine ⟨fun x hstart hdown hown hpartner hfec hrs => ?_, fun a han hdown henabled => ?_,
    fun t hstart hdown hdue henabled => ?_⟩
  · exact exec_autoNegotiationComplete_kr25 hstart hdown hown hpartner hfec hrs
  · exact exec_linkUp_negotiated han hdown henabled
  · rw [exec_linkUpTimeout_due hstart hdown hdue]
    congr 1
    exact modPort_congr s p _ _ (by simp [PortState.negotiate, PortState.basePage, henabled])

/-! ### The fall of a link -/

/-- A written AN_RESTART on a link that is up is its fall, with a free choice of the frames that it cuts (R239, log 136). -/
theorem anRestarts_up (hup : (s.port p).up = true) : ∃ rxCut txCut : Bool,
    s.anRestarts p = { s with free := s.free + 1 }.linkFalls p rxCut txCut := by
  unfold State.anRestarts
  rw [if_pos hup]
  exact ⟨_, _, rfl⟩

/-- Settles O8: a link that is up, or in training, falls by `State.linkFalls`, which counts the frames cut, ends the link,
and counts and raises the fall. -/
theorem linkFalls : Obligations.LinkFalls := by
  unfold Obligations.LinkFalls
  intro s p fallen cut
  have hfalls : ∀ (s : State) (rxCut txCut : Bool), s.linkFalls p rxCut txCut = fallen (cut rxCut txCut s) := by
    intro s rxCut txCut
    cases rxCut <;> cases txCut <;> simp [State.linkFalls, fallen, cut, State.bumpPort]
  refine ⟨fun hup => ⟨fun rxCut txCut => ?_, ?_⟩, fun rxCut txCut t a hdown hstart han => ?_⟩
  · show execLinkDown p rxCut txCut s = _
    rw [execLinkDown, if_pos hup, hfalls]
  · obtain ⟨rxCut, txCut, h⟩ := anRestarts_up hup
    exact ⟨rxCut, txCut, by rw [← hfalls, ← h]; rfl⟩
  · show execLinkDown p rxCut txCut s = _
    simp [execLinkDown, hdown, hstart, han, hfalls, cut]

/-! ### Low-power idle -/

/-- An idle transmitter enters low-power idle once it has been idle for LPI_HOLD whole ticks (R246). -/
theorem exec_transmitLpiEnter_due (hallowed : (s.port p).lpiAllowed s.tick = true) (hawake : (s.port p).txLpi = false)
    (hquiet : (s.port p).quiet = true) (hidle : (s.port p).idleSince + (s.port p).lpiHold < s.tick) :
    exec (.transmitLpiEnter p) s =
      .next ((s.modPort p (fun q => { q with txLpi := true })).bump (portBase p + 0x1A0)) := by
  show execTransmitLpiEnter p s = _
  rw [execTransmitLpiEnter, if_pos (by simp [hallowed, hawake, hquiet, hidle])]
  rfl

/-- The partner's low-power idle is counted at a link with EEE resolved (R243). -/
theorem exec_receiveLpiEnter_resolved {a : AnResult} (hup : (s.port p).up = true) (han : (s.port p).an = some a)
    (heee : a.eee = true) (hrx : (s.port p).rxLpi = false) :
    exec (.receiveLpiEnter p) s =
      .next ((s.modPort p (fun q => { q with rxLpi := true })).bump (portBase p + 0x1A8)) := by
  show execReceiveLpiEnter p s = _
  rw [execReceiveLpiEnter, if_pos (by simp [hup, han, heee, hrx])]
  rfl

/-- Settles O9: each command's condition holds, so that it acts. -/
theorem lowPowerIdle : Obligations.LowPowerIdle := by
  unfold Obligations.LowPowerIdle
  intro s p
  refine ⟨fun hallowed hawake hshort hfirst hbulk hidle => ?_, fun a hup han heee hrx => ?_, ?_⟩
  · exact exec_transmitLpiEnter_due hallowed hawake (by simp [PortState.quiet, hshort, hfirst, hbulk]) hidle
  · exact exec_receiveLpiEnter_resolved hup han heee hrx
  · show execReceiveLpiExit p s = _
    rfl

/-! ### LLDP -/

/-- An LLDPDU is due after a change, before the first one, and 3,750,000 ticks after the last (R241). -/
theorem lldp_due {q : PortState} {n : Nat}
    (h : q.lldpDue = true ∨ q.lldpLast = none ∨ ∃ t, q.lldpLast = some t ∧ t + 3750000 ≤ n) :
    (q.lldpDue || q.lldpLast.elim true (fun t => t + 3750000 ≤ n)) = true := by
  rcases h with h | h | ⟨t, h, ht⟩
  · rw [h, Bool.true_or]
  · rw [h, Option.elim_none, Bool.or_true]
  · rw [h, Option.elim_some, decide_eq_true ht, Bool.or_true]

/-- Settles O10: the agent's three commands, each with its condition met; the frame sent joins the bulk queue. -/
theorem lldpAgent : Obligations.LldpAgent := by
  unfold Obligations.LldpAgent
  intro s p
  refine ⟨fun came b rest hin => ?_, fun hagent henabled hdue => ?_, fun e heee hexpired => ?_⟩
  · show execLldpduReceive p s = _
    simp [execLldpduReceive, hin]
  · refine ⟨{ (default : OutFrame) with kind := .lldp, raw := s.lldpdu p, event := (s.port p).ownTx }, rfl, rfl, ?_⟩
    show execLldpduSend p s = _
    simp only [execLldpduSend, hagent, henabled, lldp_due hdue, Bool.and_self, Bool.not_true, Bool.false_eq_true, if_false]
    congr 1
    exact modPort_congr s p _ _ (by rw [enqueue_bulk _ _ rfl])
  · show execPartnerEeeTlvExpire p s = _
    simp [execPartnerEeeTlvExpire, heee, hexpired]

/-! ### The transmitter -/

/-- The next frame is the oldest of the first queue that holds one, in the order short, first replies, bulk (R256). -/
theorem takeNext_of_queues {x q : PortState} {f : OutFrame}
    (h : (∃ r, x.short = f :: r ∧ q = { x with short := r }) ∨
      (x.short = [] ∧ ∃ r, x.bulkFirst = f :: r ∧ q = { x with bulkFirst := r }) ∨
      (x.short = [] ∧ x.bulkFirst = [] ∧ ∃ r, x.bulk = f :: r ∧ q = { x with bulk := r })) :
    x.takeNext = some (f, q) := by
  rcases h with ⟨r, h, rfl⟩ | ⟨h1, r, h, rfl⟩ | ⟨h1, h2, r, h, rfl⟩
  · simp [PortState.takeNext, h]
  · simp [PortState.takeNext, h1, h]
  · simp [PortState.takeNext, h1, h2, h]

/-- The frame taken is not in the part of a port that says whether its link is up. -/
theorem takeNext_up {x q : PortState} {f : OutFrame} (h : x.takeNext = some (f, q)) : q.up = x.up := by
  unfold PortState.takeNext at h
  split at h
  · cases h; rfl
  · split at h
    · cases h; rfl
    · split at h
      · cases h; rfl
      · cases h

/-- Value bytes are metered in the tenants alone (R182). -/
theorem meterRead_only (s : State) (f : OutFrame) : ∃ tn, s.meterRead f = { s with tenants := tn } := by
  unfold State.meterRead
  split
  · exact ⟨_, rfl⟩
  · exact ⟨s.tenants, rfl⟩

/-- What a frame that leaves makes of its port: the newest on the wire, idle from now; an LLDPDU moves the wake time that it
advertises (R245). -/
theorem sendFrame_port (s : State) (p : Port) (f : OutFrame) :
    (s.sendFrame p f).port p =
      let q := { s.port p with sent := f.bytes (s.macOf p) (s.port p).addrs :: (s.port p).sent, idleSince := s.tick }
      if f.kind == .lldp then { q with twNext := some f.event, lpiOk := q.lpiMay s.tick } else q := by
  unfold State.sendFrame
  dsimp only
  split_ifs
  all_goals
    obtain ⟨tn, h⟩ := meterRead_only _ f
    rw [h]
    cases p <;> simp [State.port, *]

/-- ACT_N is driven for 6,250 ticks from a frame that leaves (R426). -/
theorem sendFrame_actUntil (s : State) (p : Port) (f : OutFrame) :
    (s.sendFrame p f).power.actUntil = s.tick + 6250 := by
  unfold State.sendFrame
  dsimp only
  split_ifs <;> simp

theorem sendFrame_descs (s : State) (p : Port) (f : OutFrame) : (s.sendFrame p f).descs = s.descs := by
  unfold State.sendFrame
  dsimp only
  split_ifs
  all_goals
    obtain ⟨tn, h⟩ := meterRead_only _ f
    rw [h]
    simp

/-- TRANSMIT_FRAME on a port whose link is up, and on one whose link is down (R251, R257). -/
theorem exec_transmitFrame_taken {f : OutFrame} {q : PortState} (h : (s.port p).takeNext = some (f, q)) :
    exec (.transmitFrame p) s = .next (if (s.port p).up = true
      then ((s.modPort p (fun _ => q)).sendFrame p f).frameGone f
      else ((s.modPort p (fun _ => q)).bumpPort p 0x190).frameGone f) := by
  show execTransmitFrame p s = _
  simp only [execTransmitFrame, h, takeNext_up h]
  split <;> rfl

/-- Settles O11: the frame that `PortState.takeNext` begins is sent or discarded by the link's state. -/
theorem transmitterSends : Obligations.TransmitterSends := by
  unfold Obligations.TransmitterSends
  intro s p f q hqueues
  have htake := takeNext_of_queues hqueues
  refine ⟨fun hup => ⟨(s.modPort p (fun _ => q)).sendFrame p f, ?_, ?_⟩, fun hdown => ?_⟩
  · rw [exec_transmitFrame_taken htake, if_pos hup]
  · rw [sendFrame_port, sendFrame_actUntil, sendFrame_descs]
    refine ⟨?_, ?_, modPort_tick s p _ ▸ rfl, ?_, ?_, ?_, modPort_descs s p _⟩
    all_goals
      dsimp only
      split_ifs <;> simp
  · rw [exec_transmitFrame_taken htake, if_neg (by simp [hdown])]
    rfl

/-! ### Events on their way out -/

/-- With one registration, and its port's link up, events are formed for that port (R459, R462). -/
theorem eventPort_of_only {src : Source} {at_ : Nat} (hreg : (s.port p).reg = some (src, at_)) (hup : (s.port p).up = true)
    (hother : ∀ q, q ≠ p → (s.port q).reg = none) : s.eventPort = some p := by
  cases p with
  | a =>
    have hb : s.portB.reg = none := hother .b (by simp)
    have ha : s.portA.reg = some (src, at_) := hreg
    simp [State.eventPort, ha, hb, hup]
  | b =>
    have ha : s.portA.reg = none := hother .a (by simp)
    have hb : s.portB.reg = some (src, at_) := hreg
    simp [State.eventPort, ha, hb, hup]

/-- Settles O17: the head event, the port of the registration and the management key are at hand. -/
theorem eventIsFormed : Obligations.EventIsFormed := by
  unfold Obligations.EventIsFormed
  intro s e rest p k src at_ hqueue hkey hreg hup hother
  show execEventForm s = _
  simp only [execEventForm, hqueue, eventPort_of_only hreg hup hother, hkey, hreg, modPort_events, modPort_tick,
    modPort_ledger]

end Sys2Proof.Laws
end

section
/-! PROOFS. Sequence spaces (2.5): the window, the durable ceiling, and what a write to one space leaves of the others. -/
namespace Sys2Proof.Laws
open Sys2Proof Sys2Proof.Machine

/-! ### The window -/

@[simp] theorem mark_h (x : Space) (e : Nat) : (x.mark e).h = max x.h e := rfl

@[simp] theorem mark_accepted (x : Space) (e : Nat) :
    (x.mark e).accepted = (e :: x.accepted).filter (fun n => max x.h e < n + 64) := rfl

/-- The window refuses a number that is not above H and is either 64 or more below it or accepted before (R84). -/
theorem admits_eq_false_iff (x : Space) (n : Nat) :
    x.admits n = false ↔ n ≤ x.h ∧ (x.h < n + 64 → n ∈ x.accepted) := by
  simp only [Space.admits, Bool.or_eq_false_iff, Bool.and_eq_false_imp, decide_eq_false_iff_not, not_lt,
    decide_eq_true_eq, Bool.not_eq_false', List.contains_iff_mem]

/-- A number that has been marked is a replay (R84). -/
theorem mark_admits_self (x : Space) (e : Nat) : (x.mark e).admits e = false := by
  rw [admits_eq_false_iff, mark_h, mark_accepted]
  exact ⟨le_max_right _ _, fun h => List.mem_filter.mpr ⟨List.mem_cons_self, decide_eq_true h⟩⟩

/-- A number once refused stays refused, for H only rises and no number within the window is forgotten. -/
theorem mark_keeps_refused {x : Space} {n : Nat} (e : Nat) (h : x.admits n = false) : (x.mark e).admits n = false := by
  rw [admits_eq_false_iff] at h ⊢
  obtain ⟨hle, hold⟩ := h
  rw [mark_h, mark_accepted]
  refine ⟨hle.trans (le_max_left _ _), fun hwin => List.mem_filter.mpr ⟨List.mem_cons_of_mem _ (hold ?_), decide_eq_true hwin⟩⟩
  exact (le_max_left _ _).trans_lt hwin

/-! ### Spaces by their place -/

theorem fnIndex_lt {fn : Nat} (h : fn < 32 ∨ fn = 62 ∨ fn = 63) : fnIndex fn < 34 := by
  unfold fnIndex
  split_ifs <;> omega

/-- A space after a change of one space of a drive that has it. -/
theorem space_modSpace_same {s : State} {fn sp : Nat} (f : Space → Space) (hfn : fnIndex fn < s.spaces.length)
    (hsp : sp < (s.spaces.getD (fnIndex fn) []).length) : (s.modSpace fn sp f).space fn sp = f (s.space fn sp) := by
  rw [List.getD_eq_getElem _ _ hfn] at hsp
  simp [State.space, State.modSpace, List.getD_eq_getElem?_getD, List.getElem?_eq_getElem hfn, List.getElem?_eq_getElem hsp]

/-- Every other space is as before. -/
theorem space_modSpace_ne {s : State} {fn sp g q : Nat} (f : Space → Space)
    (h : (fnIndex g, q) ≠ (fnIndex fn, sp)) : (s.modSpace fn sp f).space g q = s.space g q := by
  simp only [State.space, State.modSpace, List.getD_eq_getElem?_getD, List.getElem?_modify]
  by_cases hfn : fnIndex fn = fnIndex g
  · have hq : sp ≠ q := fun hq => h (by rw [hfn, hq])
    cases s.spaces[fnIndex g]? <;> simp [hfn, hq]
  · simp [hfn]

/-- A key load leaves each of its function's eight spaces fresh (R86, R87). -/
theorem space_restartSpaces {s : State} {fn sp : Nat} (hfn : fnIndex fn < s.spaces.length) (hsp : sp < 8) :
    (s.restartSpaces fn).space fn sp = Space.fresh := by
  have hlist : (s.restartSpaces fn).spaces.getD (fnIndex fn) [] = List.replicate 8 Space.fresh := by
    simp [State.restartSpaces, List.getD_eq_getElem?_getD, List.getElem?_eq_getElem hfn]
  rw [State.space, hlist, List.getD_replicate _ hsp]

/-! ### The obligations -/

/-- Settles O14: marking by `mark_admits_self` and `mark_keeps_refused`, and the restart by what a fresh space admits. -/
theorem windowRefusesReplays : Obligations.WindowRefusesReplays := by
  unfold Obligations.WindowRefusesReplays
  refine ⟨fun x e => ⟨mark_admits_self x e, le_max_left _ _, fun n => mark_keeps_refused e⟩, fun s fn sp hlen hfn hsp => ?_⟩
  rw [space_restartSpaces (by rw [hlen]; exact fnIndex_lt hfn) hsp]
  exact ⟨rfl, rfl⟩

/-- Settles O15: the write is a change of one space. -/
theorem durableCeilingIsWritten : Obligations.DurableCeilingIsWritten := by
  unfold Obligations.DurableCeilingIsWritten
  intro s fn sp d hlen hspaces hfn hsp hnext
  have hindex : fnIndex fn < s.spaces.length := by rw [hlen]; exact fnIndex_lt hfn
  have hplace : sp < (s.spaces.getD (fnIndex fn) []).length := by
    rw [List.getD_eq_getElem _ _ hindex, hspaces _ (List.getElem_mem hindex)]
    exact hsp
  refine ⟨_, rfl, rfl, ?_, fun g q => space_modSpace_ne _⟩
  rw [space_modSpace_same _ hindex hplace]
  simp only [hnext]

end Sys2Proof.Laws
end

section
/-! PROOFS. Requests that arrive (2.6, 6.5), and the segments of a transfer (2.7). -/
namespace Sys2Proof.Laws
open Sys2Proof Sys2Proof.Machine

/-! ### A frame that is a request -/

/-- A frame that passes every check of step 1 goes on to be sorted. -/
theorem stepOneFault_none {q : PortState} {first : Nat} {frame : Bytes} (hadm : q.admits first = true)
    (hmin : 64 ≤ frame.length) (hmax : frame.length ≤ 9216)
    (hfcs : leNat (frame.drop (frame.length - 4)) = fcsOf (frame.take (frame.length - 4))) :
    stepOneFault q first frame = none := by
  simp [stepOneFault, hadm, hmin.not_gt, hmax.not_gt, hfcs]

/-- A frame that is neither an LLDPDU nor a PAUSE frame and parses is counted, noted in the receive buffer until its decision,
and decided (R254, R90). -/
theorem sortFrame_parsed {s : State} {p : Port} {b : Bytes} {first instant : Nat} {r : Req} (hlldp : u16 b 12 ≠ 0x88CC)
    (hpause : u16 b (12 + 4 * (vlanTpids b).length) ≠ 0x8808)
    (hparse : parseFrame (s.macOf p) ((s.port p).addrsAt (first / 8000)) b = .ok r) :
    s.sortFrame p b first instant =
      ((((s.bumpPort p 0x100).bumpPort p 0x178).modPort p (fun q => { q with
        admitted := (q.decideAt instant, b.length + 4) :: q.undecided first })).decide p r instant) := by
  unfold State.sortFrame
  dsimp only
  rw [if_neg (by simp [hlldp]), if_neg hpause, bumpPort_ident]
  cases p <;> (dsimp only [State.macOf] at hparse ⊢; rw [hparse])

/-- A request that no order of Table 2.6 refuses takes the next descriptor (R270). -/
theorem decide_takes_descriptor {s : State} {p : Port} {r : Req} {instant : Nat} (hfn : r.fn < 32) (hauth : r.auth = none)
    (hlc : s.secure.lc ≠ .scrapped) (hrun : (s.tenant r.fn).state = .running)
    (hfree : (s.tenant r.fn).profile.authReq = false) (hmet : ((s.meterRequest r.fn).tenant r.fn).state = .running)
    (horders : (s.meterRequest r.fn).order6to9 r = none)
    (htransfer : (s.meterRequest r.fn).transferOf r.fn (spaceOf r.opts) r.tag = none) (hseg : seg0Ok r = true)
    (hcount : r.count = 1) (htag : (s.meterRequest r.fn).tagInFlight r.fn (spaceOf r.opts) r.tag = false)
    (hbound : (s.meterRequest r.fn).bound12 r.fn r.total = none) :
    s.decide p r instant = { s.meterRequest r.fn with
      nextDesc := (s.meterRequest r.fn).nextDesc + 1
      descs := (s.meterRequest r.fn).descs ++
        [descOf (s.meterRequest r.fn).nextDesc p r (spaceOf r.opts) 0 none (s.meterRequest r.fn).tick instant] } := by
  have hexists : s.fnExists r.fn = true := by simp [State.fnExists, hlc, hfn, hrun]
  have htenant : ¬ 62 ≤ r.fn := by omega
  have hopen : s.decide p r instant = s.orders4on p r (spaceOf r.opts) 0 none instant := by
    simp [State.decide, hexists, hauth, hfree, htenant]
  rw [hopen]
  simp [State.orders4on, hmet, horders, State.orders10on, htransfer, hseg, htag, hbound, hcount]

/-- Settles O13: step 1 and the parser for the frame, then the orders of Table 2.6 for the request. -/
theorem requestIsTakenUp : Obligations.RequestIsTakenUp := by
  unfold Obligations.RequestIsTakenUp
  intro s p
  refine ⟨fun frame pos dur r hserving hup henabled hadm hmin hmax hfcs hlldp hpause hparse => ?_,
    fun r instant hfn hauth hlc hrun hfree hmet horders htransfer hseg hcount htag hbound => ?_⟩
  · show Host.Outcome.next (s.frameArrives p frame pos dur) = _
    rw [frameArrives_receiving frame pos dur hserving hup henabled, stepOneFault_none hadm hmin hmax hfcs, Option.elim_none,
      sortFrame_parsed hlldp hpause (by rw [macOf_modPort, modPort_port]; exact hparse)]
    rfl
  · exact decide_takes_descriptor hfn hauth hlc hrun hfree hmet horders htransfer hseg hcount htag hbound

/-! ### Segments -/

/-- Settles O16: the transfer's oldest undecided segment, by whether it keeps the rules of R92 and is the last; and the end of a
transfer whose next segment has not come. -/
theorem segmentsContinue : Obligations.SegmentsContinue := by
  unfold Obligations.SegmentsContinue
  intro s id d x hdesc hphase
  refine ⟨fun g hseg hintime => ⟨fun hok hnext => ?_, fun hok hlast => ?_, fun hbroken => ?_⟩, fun hlate hnone => ?_⟩
  · show Host.Outcome.next (s.segmentTaken id) = _
    simp [State.segmentTaken, hdesc, hseg, hphase, hintime.not_gt, hok, hnext]
  · show Host.Outcome.next (s.segmentTaken id) = _
    simp [State.segmentTaken, hdesc, hseg, hphase, hintime.not_gt, hok, hlast]
  · show Host.Outcome.next (s.segmentTaken id) = _
    simp [State.segmentTaken, hdesc, hseg, hphase, hintime.not_gt, hbroken]
  · show execSegmentLate id s = _
    simp [execSegmentLate, hdesc, hphase, hlate, hnone]

end Sys2Proof.Laws
end

section
/-! PROOFS. Word memory under SECDED (8.3): a write of part of a word. -/
namespace Sys2Proof.Laws
open Sys2Proof Sys2Proof.Machine

/-- A word that has been put in reads as it was put, every other word as before, and the memory keeps its form. -/
theorem putWord_words (s : State) (k : Nat) (c : Cell) (hwf : wordsWf s.media.words = true) :
    wordsWf (s.putWord k c).media.words = true ∧
      (∀ k', k' ≠ k → readWord (s.putWord k c).media.words k' = readWord s.media.words k') ∧
      readWord (s.putWord k c).media.words k = c := by
  refine ⟨writeWord_wf _ _ _ hwf, fun k' hne => ?_, ?_⟩
  · rw [putWord_media, readWord_writeWord, if_neg hne.symm]
  · rw [putWord_media, readWord_writeWord, if_pos rfl]

/-- A word put in and a count beside it touch word memory and the counters alone. -/
theorem putWord_bumpMed_only (s : State) (k a : Nat) (c : Cell) :
    ∃ w n, (s.putWord k c).bumpMed a = { s with media := { s.media with words := w }, counters := n } := by
  obtain ⟨n, hn⟩ := bumpBy_only (s.putWord k c) (0x00060000 + a) 1
  exact ⟨_, n, hn⟩

/-- The write of a word that can be read, or of all eight bytes, puts the merged bytes in with fresh check bits; an error that
was corrected is counted (R305). -/
theorem writeBytes_readable {s : State} {m : Mem} {addr offset : Nat} {data : Bytes} {found : Found}
    (h : data.length = 8 ∨ (readWord s.media.words (Mem.word m addr) ≠ Cell.poisoned ∧ found ≠ .ue)) :
    let t := s.putWord (Mem.word m addr)
      (Cell.fresh (mergeBytes (readWord s.media.words (Mem.word m addr)).data offset data))
    s.writeBytes m addr offset data found = t ∨ s.writeBytes m addr offset data found = t.bumpMed 0x130 := by
  intro t
  unfold State.writeBytes
  dsimp only
  by_cases hall : data.length = 8
  · exact .inl (if_pos hall)
  · obtain ⟨hgood, hfound⟩ := h.resolve_left hall
    rw [if_neg hall, if_neg (by simp [hgood, hfound])]
    split
    · exact .inr rfl
    · exact .inl rfl

/-- The write of fewer than eight bytes to a word that cannot be read leaves poison, is counted, and tells the writer (R305,
R306). -/
theorem writeBytes_unreadable {s : State} {m : Mem} {addr : Nat} (offset : Nat) {data : Bytes} {found : Found}
    (hpart : data.length ≠ 8) (h : readWord s.media.words (Mem.word m addr) = Cell.poisoned ∨ found = .ue) :
    s.writeBytes m addr offset data found =
      ((s.putWord (Mem.word m addr) Cell.poisoned).bumpMed 0x138).writerTold m addr := by
  unfold State.writeBytes
  dsimp only
  rw [if_neg hpart, if_pos (by simpa using h)]

/-- The structure that the writer's word lies in is one of its memory (log 124). -/
theorem writerTold_inMem (s : State) (m : Mem) (addr : Nat) :
    ∃ x, inMem m x = true ∧ s.writerTold m addr = { s with free := s.free + 1 }.uncorrectable x := by
  refine ⟨_, ?_, rfl⟩
  split
  · assumption
  · cases m <;> rfl

/-- Settles O49: the two outcomes of `State.writeBytes`, and the fault of an access that is no word's. -/
theorem wordMemory : Obligations.WordMemory := by
  unfold Obligations.WordMemory
  intro s m addr offset data found
  refine ⟨fun ⟨haddr, hfits, hsome⟩ hwf => ⟨fun hreadable => ?_, fun hpart hbad => ?_⟩, fun houtside => ?_⟩
  · have hexec : exec (.partialWordWrite m addr offset data found) s = .next (s.writeBytes m addr offset data found) := by
      show execPartialWordWrite m addr offset data found s = _
      simp [execPartialWordWrite, haddr, hfits, hsome]
    have hwords := putWord_words s (Mem.word m addr)
      (Cell.fresh (mergeBytes (readWord s.media.words (Mem.word m addr)).data offset data)) hwf
    refine ⟨_, hexec, ?_⟩
    rcases writeBytes_readable hreadable with h | h
    · rw [h]
      exact ⟨⟨_, _, rfl⟩, hwords⟩
    · rw [h]
      refine ⟨putWord_bumpMed_only _ _ _ _, ?_⟩
      rw [bumpMed_media]
      exact hwords
  · obtain ⟨x, hx, htold⟩ := writerTold_inMem ((s.putWord (Mem.word m addr) Cell.poisoned).bumpMed 0x138) m addr
    refine ⟨(s.putWord (Mem.word m addr) Cell.poisoned).bumpMed 0x138, x, ⟨putWord_bumpMed_only _ _ _ _, ?_⟩, hx, ?_⟩
    · rw [bumpMed_media]
      exact putWord_words s (Mem.word m addr) Cell.poisoned hwf
    · show execPartialWordWrite m addr offset data found s = _
      simp only [execPartialWordWrite, haddr, hfits, hsome, decide_true, Bool.and_self, if_true,
        writeBytes_unreadable offset hpart hbad, htold, bumpMed_free, putWord_free]
  · show execPartialWordWrite m addr offset data found s = _
    rw [execPartialWordWrite, if_neg (by simpa [and_assoc] using houtside)]

end Sys2Proof.Laws
end

section
/-! PROOFS. Postings (4.2): the bytes of an account, the sums of legs, and what a posting that passes its checks leaves of each
currency. -/
namespace Sys2Proof.Laws
open Sys2Proof Sys2Proof.Machine

/-! ### Integers in bytes -/

@[simp] theorem length_toBe (w n : Nat) : (toBe w n).length = w := by
  induction w generalizing n with
  | zero => rfl
  | succ w ih => simp [toBe, ih]

theorem beNat_append_byte (b : Bytes) (x : Byte) : beNat (b ++ [x]) = beNat b * 256 + x.toNat := by
  simp [beNat]

/-- What was written big-endian reads as itself, modulo what the width holds. -/
theorem beNat_toBe (w n : Nat) : beNat (toBe w n) = n % 256 ^ w := by
  induction w generalizing n with
  | zero => simp [toBe, beNat, Nat.mod_one]
  | succ w ih =>
    rw [toBe, beNat_append_byte, ih, BitVec.toNat_ofNat, pow_succ' 256 w, Nat.mod_mul]
    omega

/-- Two's complement gives back every integer that its width holds. -/
theorem toSigned_ofSigned {w : Nat} {i : Int} (hw : 0 < w) (h : fitsSigned w i = true) :
    toSigned w (ofSigned w i) = i := by
  have hpow : (2 ^ w : Nat) = 2 * 2 ^ (w - 1) := by rw [← Nat.pow_succ', Nat.succ_eq_add_one, Nat.sub_add_cancel hw]
  simp only [fitsSigned, Bool.and_eq_true, decide_eq_true_eq] at h
  simp only [toSigned, ofSigned, hpow]
  generalize 2 ^ (w - 1) = m at h
  obtain ⟨hlow, hhigh⟩ := h
  rcases lt_or_ge i 0 with hneg | hpos
  · have hmod : i % ((2 * m : Nat) : Int) = i + (2 * m : Nat) := by
      rw [← Int.add_emod_right, Int.emod_eq_of_lt (by omega) (by omega)]
    rw [hmod, if_neg (by omega)]
    omega
  · rw [Int.emod_eq_of_lt hpos (by omega), if_pos (by omega)]
    omega

theorem ofSigned_lt (w : Nat) (i : Int) : ofSigned w i < 2 ^ w := by
  have hpos : (0 : Int) < ((2 ^ w : Nat) : Int) := by positivity
  have hlt := Int.emod_lt_of_pos i hpos
  unfold ofSigned
  omega

/-! ### The bytes of a posted account (R143, R146) -/

/-- A posting keeps the currency. -/
theorem postedValue_currency {v : Bytes} (hlen : 8 ≤ v.length) (b : Int) (seq : Nat) :
    slice (postedValue v b seq) 1 3 = slice v 1 3 := by
  obtain ⟨w, rest, rfl, hw⟩ : ∃ w rest, v = w ++ rest ∧ w.length = 8 :=
    ⟨v.take 8, v.drop 8, (List.take_append_drop 8 v).symm, by simp [hlen]⟩
  simp [slice, postedValue, List.drop_append, List.take_append, hw]

/-- The balance of a posted account is the one posted. -/
theorem balanceOf_postedValue {v : Bytes} {b : Int} (hlen : 8 ≤ v.length) (hfits : fitsSigned 128 b = true) (seq : Nat) :
    balanceOf (postedValue v b seq) = b := by
  have hslice : slice (postedValue v b seq) 16 16 = toBe 16 (ofSigned 128 b) := by
    simp [slice, postedValue, List.drop_append, List.take_append, hlen]
  have hlt : ofSigned 128 b < 256 ^ 16 := ofSigned_lt 128 b
  rw [balanceOf, hslice, beNat_toBe, Nat.mod_eq_of_lt hlt, toSigned_ofSigned (by decide) hfits]

/-! ### Sums over legs -/

/-- An accumulating sum is the sum of the list. -/
theorem foldl_ite_add {α : Type} (p : α → Prop) [DecidablePred p] (f : α → Int) (l : List α) (n : Int) :
    l.foldl (fun acc a => if p a then acc + f a else acc) n = n + (l.map (fun a => if p a then f a else 0)).sum := by
  induction l generalizing n with
  | nil => simp
  | cons a l ih =>
    rw [List.foldl_cons, ih, List.map_cons, List.sum_cons]
    split <;> omega

theorem nodup_eraseDups {α : Type} [BEq α] [LawfulBEq α] : ∀ l : List α, l.eraseDups.Nodup
  | [] => by simp
  | a :: l => by
    rw [List.eraseDups_cons, List.nodup_cons]
    exact ⟨by simp, nodup_eraseDups _⟩
termination_by l => l.length
decreasing_by exact Nat.lt_succ_of_le (List.length_filter_le _ _)

/-- What one place of a list without repetition adds, summed over the list. -/
theorem sum_ite_eq_of_nodup {α : Type} [DecidableEq α] {keys : List α} {a : α} (hnodup : keys.Nodup) (hmem : a ∈ keys)
    (c : Int) : (keys.map (fun k => if a = k then c else 0)).sum = c := by
  have h := List.sum_map_ite_eq keys (fun _ => c) (fun _ => (0 : Int)) a
  simpa [eq_comm, List.count_eq_one_of_mem hnodup hmem] using h

/-- A sum over legs, taken key by key. -/
theorem sum_by_key {keys : List Bytes} (hnodup : keys.Nodup) (g : Leg → Int) (legs : List Leg)
    (hmem : ∀ l ∈ legs, l.key ∈ keys) :
    (keys.map (fun k => (legs.map (fun l => if l.key = k then g l else 0)).sum)).sum = (legs.map g).sum := by
  induction legs with
  | nil => simp
  | cons l legs ih =>
    simp only [List.map_cons, List.sum_cons, List.sum_map_add]
    rw [sum_ite_eq_of_nodup hnodup (hmem l List.mem_cons_self), ih (fun l h => hmem l (List.mem_cons_of_mem _ h))]

/-- Legs whose every currency sums to zero sum to zero in any currency, named or not (R148). -/
theorem sumOf_eq_zero {legs : List Leg} (h : zeroSumFault legs = none) (cur : Bytes) : sumOf legs cur = 0 := by
  by_cases hnamed : ∃ l ∈ legs, l.currency = cur
  · obtain ⟨l, hl, rfl⟩ := hnamed
    have hleg := List.findIdx?_eq_none_iff.mp h l hl
    simpa using hleg
  · have hnone : ∀ l ∈ legs, (if l.currency = cur then l.amount else 0) = 0 :=
      fun l hl => if_neg (fun hc => hnamed ⟨l, hl, hc⟩)
    rw [sumOf, foldl_ite_add, List.map_congr_left hnone]
    simp

/-! ### Stage 3 (R150) -/

/-- An account that refuses none of its legs is there, well-formed, open and of the leg's currency. -/
theorem legFault_none {view : Bytes → Except Lost (Option Bytes)} {i : Nat} {l : Leg} (h : legFault view i l = none) :
    ∃ v, view l.key = .ok (some v) ∧ accountOk v = true ∧ accountClosed v = false ∧ l.currency = slice v 1 3 := by
  unfold legFault at h
  split at h
  · cases h
  · cases h
  · rename_i v hview
    split_ifs at h with hok hclosed hcur
    exact ⟨v, hview, by simpa using hok, by simpa using hclosed, not_not.mp hcur⟩

theorem firstLegFault_none {view : Bytes → Except Lost (Option Bytes)} {i : Nat} {legs : List Leg}
    (h : firstLegFault view i legs = none) : ∀ l ∈ legs,
    ∃ v, view l.key = .ok (some v) ∧ accountOk v = true ∧ accountClosed v = false ∧ l.currency = slice v 1 3 := by
  induction legs generalizing i with
  | nil => simp
  | cons l legs ih =>
    rw [firstLegFault] at h
    split at h
    · cases h
    · rename_i hl
      rw [List.forall_mem_cons]
      exact ⟨legFault_none hl, ih h⟩

/-- Stage 3 that accepts has found no leg at fault and every new balance in range, and posts to each touched account. -/
theorem stage3_ok {view : Bytes → Except Lost (Option Bytes)} {seq : Nat} {legs : List Leg} {accs : List (Bytes × Bytes)}
    (h : stage3 view seq legs = .ok accs) : firstLegFault view 0 legs = none ∧
    (∀ a ∈ touched view legs, fitsSigned 128 (balanceOf a.value + a.net) = true) ∧
    accs = (touched view legs).map (fun a => (a.key, postedValue a.value (balanceOf a.value + a.net) seq)) := by
  unfold stage3 at h
  split at h
  · cases h
  · rename_i hleg
    dsimp only at h
    split at h
    · cases h
    · rename_i hfits
      split at h
      · cases h
      · injection h with h
        exact ⟨hleg, fun a ha => by simpa using List.find?_eq_none.mp hfits a ha, h.symm⟩

/-- A well-formed account has its 64 bytes. -/
theorem accountOk_length {v : Bytes} (h : accountOk v = true) : 64 ≤ v.length := by
  simp only [accountOk, isAccountValue, Bool.and_eq_true, decide_eq_true_eq] at h
  exact h.1.1.1.1

/-- The change of one account in one currency: its legs of that currency. -/
theorem net_in_currency {view : Bytes → Except Lost (Option Bytes)} {legs : List Leg} {k v cur : Bytes}
    (hlegs : ∀ l ∈ legs, ∃ v, view l.key = .ok (some v) ∧ accountOk v = true ∧ accountClosed v = false ∧
      l.currency = slice v 1 3) (hview : view k = .ok (some v)) :
    (if slice v 1 3 = cur then legs.foldl (fun acc l => if l.key = k then acc + l.amount else acc) 0 else 0) =
      (legs.map (fun l => if l.key = k then (if l.currency = cur then l.amount else 0) else 0)).sum := by
  have hcur : ∀ l ∈ legs, l.key = k → l.currency = slice v 1 3 := by
    rintro l hl rfl
    obtain ⟨w, hw, _, _, hc⟩ := hlegs l hl
    rw [hview] at hw
    cases hw
    exact hc
  rw [foldl_ite_add, zero_add]
  by_cases hv : slice v 1 3 = cur
  · rw [if_pos hv]
    refine congrArg List.sum (List.map_congr_left fun l hl => ?_)
    by_cases hk : l.key = k
    · rw [if_pos hk, if_pos hk, if_pos ((hcur l hl hk).trans hv)]
    · rw [if_neg hk, if_neg hk]
  · rw [if_neg hv]
    refine (List.sum_eq_zero fun n hn => ?_).symm
    obtain ⟨l, hl, rfl⟩ := List.mem_map.mp hn
    by_cases hk : l.key = k
    · rw [if_pos hk, if_neg (fun hc => hv ((hcur l hl hk).symm.trans hc))]
    · rw [if_neg hk]

/-- A touched account is there, well-formed, and changes by the amounts of its legs. -/
theorem mem_touched {view : Bytes → Except Lost (Option Bytes)} {legs : List Leg} {a : Touched}
    (hlegs : ∀ l ∈ legs, ∃ v, view l.key = .ok (some v) ∧ accountOk v = true ∧ accountClosed v = false ∧
      l.currency = slice v 1 3) (ha : a ∈ touched view legs) :
    view a.key = .ok (some a.value) ∧ accountOk a.value = true ∧
      a.net = legs.foldl (fun acc l => if l.key = a.key then acc + l.amount else acc) 0 := by
  obtain ⟨k, hk, rfl⟩ := List.mem_map.mp ha
  obtain ⟨l, hl, rfl⟩ := List.mem_map.mp (List.mem_eraseDups.mp hk)
  obtain ⟨v, hview, hok, _, _⟩ := hlegs l hl
  simp only [hview]
  exact ⟨trivial, hok, trivial⟩

theorem touched_keys (view : Bytes → Except Lost (Option Bytes)) (legs : List Leg) :
    (touched view legs).map (·.key) = (legs.map (·.key)).eraseDups := by
  simp [touched, Function.comp_def]

/-- What one key's legs of a currency amount to. -/
def legSum (legs : List Leg) (cur k : Bytes) : Int :=
  (legs.map (fun l => if l.key = k then (if l.currency = cur then l.amount else 0) else 0)).sum

/-- What an account holds of a currency. -/
def holdingOf (cur v : Bytes) : Int := if slice v 1 3 = cur then balanceOf v else 0

/-- A posted account holds of a currency what it held and what its legs of that currency bring. -/
theorem holdingOf_posted {view : Bytes → Except Lost (Option Bytes)} {legs : List Leg} {a : Touched} (seq : Nat)
    (cur : Bytes) (hlegs : ∀ l ∈ legs, ∃ v, view l.key = .ok (some v) ∧ accountOk v = true ∧ accountClosed v = false ∧
      l.currency = slice v 1 3) (ha : a ∈ touched view legs)
    (hfits : fitsSigned 128 (balanceOf a.value + a.net) = true) :
    holdingOf cur (postedValue a.value (balanceOf a.value + a.net) seq) = holdingOf cur a.value + legSum legs cur a.key := by
  obtain ⟨hview, hok, hnet⟩ := mem_touched hlegs ha
  have hlen : 8 ≤ a.value.length := (by decide : 8 ≤ 64).trans (accountOk_length hok)
  rw [legSum, ← net_in_currency hlegs hview, ← hnet, holdingOf, holdingOf, postedValue_currency hlen,
    balanceOf_postedValue hlen hfits]
  split_ifs <;> simp

/-- The legs of a posting that passed stage 1, taken account by account, sum to zero in every currency. -/
theorem sum_legSum_touched {view : Bytes → Except Lost (Option Bytes)} {legs : List Leg} (hzero : zeroSumFault legs = none)
    (cur : Bytes) : ((touched view legs).map (fun a => legSum legs cur a.key)).sum = 0 := by
  have hkeys : (touched view legs).map (fun a => legSum legs cur a.key) =
      ((legs.map (·.key)).eraseDups).map (legSum legs cur) := by
    rw [← touched_keys view, List.map_map, Function.comp_def]
  have hsum : (legs.map (fun l => if l.currency = cur then l.amount else 0)).sum = sumOf legs cur := by
    rw [sumOf, foldl_ite_add, zero_add]
  calc ((touched view legs).map (fun a => legSum legs cur a.key)).sum
      = (((legs.map (·.key)).eraseDups).map (legSum legs cur)).sum := by rw [hkeys]
    _ = (legs.map (fun l => if l.currency = cur then l.amount else 0)).sum :=
        sum_by_key (nodup_eraseDups _) _ _ (fun l hl => List.mem_eraseDups.mpr (List.mem_map_of_mem hl))
    _ = 0 := by rw [hsum, sumOf_eq_zero hzero]

/-- Settles O31: each touched account changes by its legs' amounts, which are of its currency; taken together they are the
legs' sum in that currency, and stage 1 has found it zero. -/
theorem postingConservesCurrency : Obligations.PostingConservesCurrency := by
  unfold Obligations.PostingConservesCurrency
  intro view seq legs accs hzero hstage cur
  obtain ⟨hleg, hfits, rfl⟩ := stage3_ok hstage
  have hlegs := firstLegFault_none hleg
  rw [List.map_map, List.map_map]
  calc ((touched view legs).map (fun a => holdingOf cur (postedValue a.value (balanceOf a.value + a.net) seq))).sum
      = ((touched view legs).map (fun a => holdingOf cur a.value + legSum legs cur a.key)).sum :=
        congrArg List.sum (List.map_congr_left fun a ha => holdingOf_posted seq cur hlegs ha (hfits a ha))
    _ = ((touched view legs).map (fun a => holdingOf cur a.value)).sum := by
        rw [List.sum_map_add, sum_legSum_touched hzero, add_zero]
    _ = _ := by
        refine congrArg List.sum (List.map_congr_left fun a ha => ?_)
        obtain ⟨hview, _, _⟩ := mem_touched hlegs ha
        simp only [Function.comp_apply, hview, holdingOf]

end Sys2Proof.Laws
end

section
/-! PROOFS. Tally code (4.3): one step of the engine for each form of instruction, in the forms that go on and the forms that
fault. -/
namespace Sys2Proof.Laws
open Sys2Proof Sys2Proof.Machine

variable {s : State} {i : Instr} {t : Tree} {f : Frame} {rest : List Frame}

/-! ### A step of the engine -/

/-- An instruction that leaves its tree `u` leaves the drive with that tree. -/
theorem tallyStep_of_effect {u : Tree} (h : Safety.Runs s i t f rest)
    (he : s.tallyEffect i { t with stepsLeft := t.stepsLeft - 1 } = u) :
    s.tallyStep i = { s with ledger := { s.ledger with tree := some u } } := by
  rw [tally_runs h, he]

/-- An instruction on the running frame that goes on: the frame as it leaves it, at the next instruction. -/
theorem tallyStep_onFrame_ok {g : Frame → Except Nat Frame} {f' : Frame} (h : Safety.Runs s i t f rest)
    (he : ∀ u : Tree, s.tallyEffect i u = u.onFrame g) (hg : g f = .ok f') :
    s.tallyStep i = Safety.ran s t ({ f' with pc := f'.pc + 1 } :: rest) := by
  obtain ⟨_, _, hframes, _⟩ := id h
  refine tallyStep_of_effect h ?_
  simp only [he, Tree.onFrame, hframes, hg]

/-- An instruction on the running frame that faults: the tree ends with the code, the instruction's offset and the depth, and
is otherwise as it was (R166). -/
theorem tallyStep_onFrame_fault {g : Frame → Except Nat Frame} {code : Nat} (h : Safety.Runs s i t f rest)
    (he : ∀ u : Tree, s.tallyEffect i u = u.onFrame g) (hg : g f = .error code) :
    s.tallyStep i = { s with ledger := { s.ledger with tree := some { t with
      stepsLeft := t.stepsLeft - 1, ended := some (.fault code (4 * f.pc) (rest.length + 1)) } } } := by
  obtain ⟨_, _, hframes, _⟩ := id h
  refine tallyStep_of_effect h ?_
  simp [he, Tree.onFrame, hframes, hg, Tree.fault, Tree.offset, Tree.depth]

/-! ### Registers and buffers -/

theorem setChecked_fits {a : Fin 16} {v : Int} (h : fitsSigned 128 v = true) : f.setChecked a v = .ok (f.setReg a v) :=
  if_pos h

theorem setChecked_overflow {a : Fin 16} {v : Int} (h : fitsSigned 128 v = false) :
    f.setChecked a v = .error faultOverflow :=
  if_neg (by simp [h])

theorem checkWidth_ok {w most : Nat} (h : 1 ≤ w) (hmost : w ≤ most) : checkWidth w most = .ok () :=
  if_pos (by simp [h, hmost])

theorem loadAt_ok {b : Nat} {off : Int} {w : Nat} (hoff : 0 ≤ off) (hin : off.toNat + w ≤ (f.buf b).length) :
    f.loadAt b off w = .ok (slice (f.buf b) off.toNat w) :=
  if_neg (by simp [hoff, hin])

/-- A store within 4,096 bytes, over a buffer filled with zeros up to where the bytes begin (R157). -/
theorem storeAt_ok {b : Nat} {off : Int} {x : Bytes} (hoff : 0 ≤ off) (hin : off.toNat + x.length ≤ 4096) :
    f.storeAt b off x = .ok (f.setBuf b
      ((padTo (max (f.buf b).length (off.toNat + x.length)) (f.buf b)).take off.toNat ++ x ++
        (padTo (max (f.buf b).length (off.toNat + x.length)) (f.buf b)).drop (off.toNat + x.length))) :=
  if_neg (by simp [hoff, hin])

theorem keyOf_ok {b : Nat} (hmin : 1 ≤ (f.buf b).length) (hmax : (f.buf b).length ≤ 255) : f.keyOf b = .ok (f.buf b) :=
  if_pos (by simp [hmin, hmax])

/-! ### Arithmetic, moves and comparison -/

/-- Settles O25: each instruction's effect on the running frame is that of Table 4.4, and goes on. -/
theorem tallyArithmetic : Obligations.TallyArithmetic := by
  unfold Obligations.TallyArithmetic
  intro s t f rest a b imm set
  have hgoes : ∀ {i : Instr} {g : Frame → Except Nat Frame} {v : Int}, Safety.Runs s i t f rest →
      (∀ u : Tree, s.tallyEffect i u = u.onFrame g) → g f = .ok (f.setReg a v) → .next (s.tallyStep i) = set v :=
    fun h he hg => congrArg _ (tallyStep_onFrame_ok h he hg)
  refine ⟨fun h => ?_, fun v h hconst => ?_, fun h => ?_, fun h hfits => ?_, fun h hfits => ?_, fun h hfits => ?_,
    fun h hzero hfits => ?_, fun h hzero => ?_, fun h hzero hfits => ?_, fun h hfits => ?_, fun h => ?_⟩
  · exact hgoes (g := tallyLdi a imm) h (fun _ => rfl) rfl
  · exact hgoes (g := tallyLdc a imm) h (fun _ => rfl) (by simp [tallyLdc, hconst])
  · exact hgoes (g := tallyMov a b) h (fun _ => rfl) rfl
  · exact hgoes (g := tallyAdd a b) h (fun _ => rfl) (setChecked_fits hfits)
  · exact hgoes (g := tallySub a b) h (fun _ => rfl) (setChecked_fits hfits)
  · exact hgoes (g := tallyMul a b) h (fun _ => rfl) (setChecked_fits hfits)
  · exact hgoes (g := tallyDiv a b) h (fun _ => rfl) ((if_neg hzero).trans (setChecked_fits hfits))
  · exact hgoes (g := tallyRem a b) h (fun _ => rfl) (if_neg hzero)
  · exact hgoes (g := tallyMuldiv a b imm) h (fun _ => rfl) ((if_neg hzero).trans (setChecked_fits hfits))
  · exact hgoes (g := tallyNeg a) h (fun _ => rfl) (setChecked_fits hfits)
  · exact congrArg _ (tallyStep_onFrame_ok (g := tallyCmp a b) h (fun _ => rfl) rfl)

/-- Settles O26: an overflow, a division by zero and a constant that the image lacks end the tree with their codes. -/
theorem tallyFaults : Obligations.TallyFaults := by
  unfold Obligations.TallyFaults
  intro s t f rest a b imm faulted
  have hfaults : ∀ {i : Instr} {g : Frame → Except Nat Frame} {code : Nat}, Safety.Runs s i t f rest →
      (∀ u : Tree, s.tallyEffect i u = u.onFrame g) → g f = .error code → .next (s.tallyStep i) = faulted code :=
    fun h he hg => congrArg _ (tallyStep_onFrame_fault h he hg)
  refine ⟨fun h hbig => ?_, fun h hbig => ?_, fun h hbig => ?_, fun h hbig => ?_, fun h hzero => ?_, fun h hzero => ?_,
    fun h hzero => ?_, fun h hconst => ?_⟩
  · exact hfaults (g := tallyAdd a b) h (fun _ => rfl) (setChecked_overflow hbig)
  · exact hfaults (g := tallySub a b) h (fun _ => rfl) (setChecked_overflow hbig)
  · exact hfaults (g := tallyMul a b) h (fun _ => rfl) (setChecked_overflow hbig)
  · exact hfaults (g := tallyNeg a) h (fun _ => rfl) (setChecked_overflow hbig)
  · exact hfaults (g := tallyDiv a b) h (fun _ => rfl) (if_pos hzero)
  · exact hfaults (g := tallyRem a b) h (fun _ => rfl) (if_pos hzero)
  · exact hfaults (g := tallyMuldiv a b imm) h (fun _ => rfl) (if_pos hzero)
  · exact hfaults (g := tallyLdc a imm) h (fun _ => rfl) (by simp [tallyLdc, hconst, faultBadOperand])

/-! ### Loads and stores -/

/-- Settles O27: with the width allowed and the bytes within the buffer, each load reads and each store writes. -/
theorem tallyBuffers : Obligations.TallyBuffers := by
  unfold Obligations.TallyBuffers
  intro s t f rest a b imm w i n set store hoff hw
  have hset : ∀ {i : Instr} {g : Frame → Except Nat Frame} {v : Int}, Safety.Runs s i t f rest →
      (∀ u : Tree, s.tallyEffect i u = u.onFrame g) → g f = .ok (f.setReg a v) → .next (s.tallyStep i) = set v :=
    fun h he hg => congrArg _ (tallyStep_onFrame_ok h he hg)
  have hstore : ∀ {j : Instr} {g : Frame → Except Nat Frame} {x : Bytes}, Safety.Runs s j t f rest →
      (∀ u : Tree, s.tallyEffect j u = u.onFrame g) → n + x.length ≤ 4096 → g f = f.storeAt i (f.reg b) x →
        .next (s.tallyStep j) = store x :=
    fun h he hin hg => congrArg _ (tallyStep_onFrame_ok h he (hg.trans (storeAt_ok hoff hin)))
  have hload : n + w ≤ (f.buf i).length → f.loadAt i (f.reg b) w = .ok (slice (f.buf i) n w) := loadAt_ok hoff
  refine ⟨fun h hmost hin => ?_, fun v h hmost hin hv => ?_, fun v h hmost hin hv => ?_, fun h hmost hfits hin => ?_,
    fun x h hmost hx hin => ?_, fun x h hmost hx hin => ?_, fun h => ?_, fun h hpos hmax => ?_⟩
  · refine hset (g := tallyLdbe a b imm) h (fun _ => rfl) ?_
    rw [tallyLdbe, checkWidth_ok hw hmost, hload hin]
    rfl
  · refine hset (g := tallyLdpd a b imm) h (fun _ => rfl) ?_
    rw [tallyLdpd, checkWidth_ok hw hmost, hload hin]
    exact congrArg (fun r => r >>= fun v => pure (f.setReg a v)) hv
  · refine hset (g := tallyLdzd a b imm) h (fun _ => rfl) ?_
    rw [tallyLdzd, checkWidth_ok hw hmost, hload hin]
    exact congrArg (fun r => r >>= fun v => pure (f.setReg a v)) hv
  · refine hstore (g := tallyStbe a b imm) h (fun _ => rfl) hin ?_
    rw [tallyStbe, checkWidth_ok hw hmost]
    exact if_pos hfits
  · refine hstore (g := tallyStpd a b imm) h (fun _ => rfl) hin ?_
    rw [tallyStpd, checkWidth_ok hw hmost, hx]
    rfl
  · refine hstore (g := tallyStzd a b imm) h (fun _ => rfl) hin ?_
    rw [tallyStzd, checkWidth_ok hw hmost, hx]
    rfl
  · exact hset (g := tallyLen a imm) h (fun _ => rfl) rfl
  · exact congrArg _ (tallyStep_onFrame_ok (g := tallySetlen a imm) h (fun _ => rfl) (if_neg (by simp [hpos, hmax])))

/-! ### Records, legs and clocks -/

/-- A key that its tenant owns in the tree's set is noted among those that the tree has named (R161, R201). -/
theorem nameKey_owned {key : Bytes} (h : s.treeKeyFault t key = none) (go : Tree → Tree) :
    s.nameKey t key go = go { t with names := addKey t.names key } := by
  simp only [State.nameKey, h]

/-- READ of a value that the tree sees, within its bounds (R158, R165). -/
theorem tallyRead_seen {a : Fin 16} {imm : BitVec 16} {key v : Bytes} {ver : Nat} (hframes : t.frames = f :: rest)
    (hkey : f.keyOf (bufFirst imm) = .ok key) (howned : s.treeKeyFault t key = none)
    (hkeys : (addKey t.keysRead key).length ≤ 64) (hview : s.treeView t key = .ok (some (v, ver)))
    (hlen : v.length ≤ 4096) :
    s.tallyRead a imm t = { t with
      names := addKey t.names key, keysRead := addKey t.keysRead key
      frames := { f with regs := f.regs.set a.val ver, bufs := f.bufs.set (bufSecond imm) v, pc := f.pc + 1 } :: rest } := by
  have hview' : s.treeView { t with names := addKey t.names key, keysRead := addKey t.keysRead key } key =
      .ok (some (v, ver)) := hview
  simp only [State.tallyRead, hframes, hkey, nameKey_owned howned, if_neg hkeys.not_gt, if_neg hlen.not_gt, hframes ▸ hview']
  rfl

/-- WRITE and DEL of a key that no other hold holds, with -1 or the version seen expected (R161, R165). -/
theorem tallyChange_admitted {a : Fin 16} {imm : BitVec 16} {key : Bytes} (value : Frame → Option Bytes)
    (hframes : t.frames = f :: rest) (hkey : f.keyOf (bufFirst imm) = .ok key) (howned : s.treeKeyFault t key = none)
    (hheld : s.treeHeld t key = none) (hkeys : (addKey (t.writes.map (·.1)).eraseDups key).length ≤ 16)
    (hver : f.reg a = -1 ∨ f.reg a = s.treeVersion t key) :
    s.tallyChange a imm value t = { t with
      names := addKey t.names key, writes := t.writes ++ [(key, value f)]
      frames := { f with pc := f.pc + 1 } :: rest } := by
  have hheld' : s.treeHeld { t with names := addKey t.names key } key = none := hheld
  have hver' : (f.reg a = -1 || f.reg a = (s.treeVersion { t with names := addKey t.names key } key : Int)) = true := by
    rw [Bool.or_eq_true, decide_eq_true_eq, decide_eq_true_eq]
    exact hver
  simp only [State.tallyChange, hframes, hkey, nameKey_owned howned, if_neg hkeys.not_gt, hframes ▸ hheld', if_pos (hframes ▸ hver')]
  rfl

/-- LEG within 16 legs, on a key that no other hold holds (R161, R165). -/
theorem tallyLeg_admitted {a b : Fin 16} {imm : BitVec 16} {key : Bytes} (hframes : t.frames = f :: rest)
    (hkey : f.keyOf (bufFirst imm) = .ok key) (howned : s.treeKeyFault t key = none) (hheld : s.treeHeld t key = none)
    (hcur : currencyOk (toBe 3 (ofSigned 24 (f.reg b))) = true) (hlegs : t.legs.length < 16) :
    s.tallyLeg a b imm t = { t with
      names := addKey t.names key
      legs := t.legs ++ [{ currency := toBe 3 (ofSigned 24 (f.reg b)), amount := f.reg a, key := key }]
      frames := { f with pc := f.pc + 1 } :: rest } := by
  have hheld' : s.treeHeld { t with names := addKey t.names key } key = none := hheld
  simp only [State.tallyLeg, hframes, hkey, hcur, Bool.not_true, Bool.false_eq_true, if_false, if_neg hlegs.not_ge,
    nameKey_owned howned, hframes ▸ hheld']
  rfl

/-- Settles O28: each instruction's effect on the tree, in its form that neither faults nor refuses. -/
theorem tallyRecords : Obligations.TallyRecords := by
  unfold Obligations.TallyRecords
  intro s t f rest a b imm key next named hbuf hmin hmax howned
  have hkey : f.keyOf (bufFirst imm) = .ok key := by
    subst hbuf
    exact keyOf_ok hmin hmax
  have hstep : ∀ {i : Instr} {u : Tree}, Safety.Runs s i t f rest →
      s.tallyEffect i { t with stepsLeft := t.stepsLeft - 1 } = u →
      Host.Outcome.next (s.tallyStep i) = (.next { s with ledger := { s.ledger with tree := some u } } :
        Host.Outcome State Fault Refusal) := fun h he => congrArg _ (tallyStep_of_effect h he)
  refine ⟨fun v ver h hkeys hview hlen => ?_, fun hheld hkeys hver => ⟨fun h => ?_, fun h => ?_⟩, fun h hheld hcur hlegs => ?_,
    fun n v hmem himm h => ?_⟩
  · obtain ⟨_, _, hframes, _⟩ := id h
    exact hstep h (tallyRead_seen (t := { t with stepsLeft := t.stepsLeft - 1 }) hframes hkey howned hkeys hview hlen)
  · obtain ⟨_, _, hframes, _⟩ := id h
    exact hstep h (tallyChange_admitted (t := { t with stepsLeft := t.stepsLeft - 1 }) _ hframes hkey howned hheld hkeys hver)
  · obtain ⟨_, _, hframes, _⟩ := id h
    exact hstep h (tallyChange_admitted (t := { t with stepsLeft := t.stepsLeft - 1 }) _ hframes hkey howned hheld hkeys hver)
  · obtain ⟨_, _, hframes, _⟩ := id h
    exact hstep h (tallyLeg_admitted (t := { t with stepsLeft := t.stepsLeft - 1 }) hframes hkey howned hheld hcur hlegs)
  · obtain ⟨_, _, hframes, _⟩ := id h
    refine hstep h ?_
    subst himm
    simp only [List.mem_cons, Prod.mk.injEq, List.not_mem_nil, or_false] at hmem
    rcases hmem with ⟨hn, rfl⟩ | ⟨hn, rfl⟩ | ⟨hn, rfl⟩ | ⟨hn, rfl⟩ <;>
      simp only [State.tallyEffect, Tree.tallyClk, Tree.onFrame, hframes, hn] <;> rfl

/-! ### Control -/

/-- An image that keeps Table 4.3 begins with 0x02 and is not empty. -/
theorem imageOk_head {b : Bytes} (h : imageOk b = true) : byteAt b 0 = 2 ∧ b ≠ [] := by
  simp only [imageOk, Bool.and_eq_true, decide_eq_true_eq, beq_iff_eq] at h
  obtain ⟨⟨⟨⟨⟨⟨⟨hlen, hhead⟩, _⟩, _⟩, _⟩, _⟩, _⟩, _⟩ := h
  exact ⟨hhead, fun hnil => by simp [hnil] at hlen⟩

/-- CALL of an intact image from a depth below 4 (R160, R163). -/
theorem tallyCall_intact {imm : BitVec 16} {key : Bytes} {r : Rec} (hframes : t.frames = f :: rest)
    (hkey : f.keyOf (bufFirst imm) = .ok key) (howned : s.treeKeyFault t key = none)
    (hrec : (s.tenant t.tenant).find key = some r) (hlost : r.lost = .no) (himage : imageOk r.value = true)
    (hdepth : rest.length < 3) :
    s.tallyCall imm t = { t with
      names := addKey t.names key, called := addKey t.called key
      frames := imageFrame r.value (f.buf (bufSecond imm)) (bufThird imm) :: { f with pc := f.pc + 1 } :: rest } := by
  obtain ⟨hhead, hsome⟩ := imageOk_head himage
  have hroom : ¬ 3 ≤ rest.length := by omega
  simp [State.tallyCall, hframes, hkey, nameKey_owned howned, hrec, hlost, hhead, hsome, himage, Tree.depth, hroom]

/-- Settles O29: branches, calls and returns by the frames that they leave; the ends of a tree by what ends it. -/
theorem tallyControl : Obligations.TallyControl := by
  unfold Obligations.TallyControl
  intro s t f rest a imm ended
  refine ⟨fun h hcond hlow hhigh => ?_, fun h hcond => ?_, fun r h hmin hmax howned hrec hlost himage hdepth => ?_,
    fun h hrest => ?_, fun g more h hrest => ?_, fun h => ?_, fun h hop => ?_⟩
  all_goals
    obtain ⟨_, _, hframes, _⟩ := id h
    refine congrArg Host.Outcome.next (tallyStep_of_effect h ?_)
  · simp [State.tallyEffect, Tree.branch, hframes, hcond, hlow.not_gt, hhigh.not_ge]
  · simp [State.tallyEffect, Tree.branch, hframes, hcond]
  · exact tallyCall_intact (t := { t with stepsLeft := t.stepsLeft - 1 }) hframes (keyOf_ok hmin hmax) howned hrec hlost
      himage hdepth
  · simp [State.tallyEffect, Tree.tallyHalt, hframes, hrest]
  · simp [State.tallyEffect, Tree.tallyHalt, hframes, hrest, Frame.setBuf]
  · simp [State.tallyEffect, Tree.tallyFail, Tree.fault, Tree.offset, Tree.depth, hframes]
  · simp [State.tallyEffect, Tree.tallyLong, Tree.offset, Tree.depth, hframes, hop]

end Sys2Proof.Laws
end

section
/-! PROOFS. Reads, holds, cursors and plain writes (3.3 to 3.5): what a lookup leaves as it was, and each command at the
record that it reaches. -/
namespace Sys2Proof.Laws
open Sys2Proof Sys2Proof.Machine

/-! ### What a counted lookup leaves -/

section
variable (s : State)

@[simp] theorem looked_tenant (t : Nat) : s.looked.tenant t = s.tenant t := by
  obtain ⟨c, h⟩ := looked_only s
  rw [h]; rfl

@[simp] theorem looked_owns (t : Nat) (key : Bytes) : s.looked.owns t key = s.owns t key := by
  obtain ⟨c, h⟩ := looked_only s
  rw [h]; rfl

@[simp] theorem looked_keySet (key : Bytes) : s.looked.keySet key = s.keySet key := by
  obtain ⟨c, h⟩ := looked_only s
  rw [h]; rfl

@[simp] theorem looked_port (p : Port) : s.looked.port p = s.port p := port_bump s _ p

@[simp] theorem looked_tick : s.looked.tick = s.tick := bump_tick s _

@[simp] theorem looked_holdsInUse (fn id : Nat) : s.looked.holdsInUse fn id = s.holdsInUse fn id := by
  obtain ⟨c, h⟩ := looked_only s
  rw [h]; rfl

@[simp] theorem looked_macKey (fn : Nat) : s.looked.macKey fn = s.macKey fn := by
  obtain ⟨c, h⟩ := looked_only s
  rw [h]; rfl

@[simp] theorem looked_keyShort (fn n : Nat) : s.looked.keyShort fn n = s.keyShort fn n := by
  obtain ⟨c, h⟩ := looked_only s
  rw [h]; rfl

@[simp] theorem looked_thermalOn : s.looked.thermalOn = s.thermalOn := by
  obtain ⟨c, h⟩ := looked_only s
  rw [h]; rfl

@[simp] theorem looked_holdCheck (d : Desc) : s.looked.holdCheck d = s.holdCheck d := by
  obtain ⟨c, h⟩ := looked_only s
  rw [h]; rfl

@[simp] theorem looked_writeEntry (d : Desc) (hold : Option Hold) : s.looked.writeEntry d hold = s.writeEntry d hold := by
  obtain ⟨c, h⟩ := looked_only s
  rw [h]; rfl

@[simp] theorem looked_prefixLeast (t : Nat) (key : Bytes) : s.looked.prefixLeast t key = s.prefixLeast t key := by
  obtain ⟨c, h⟩ := looked_only s
  rw [h]; rfl

theorem looked_journalRoom {n : Nat} (h : s.ledger.used + s.reserved + n ≤ commitArea) :
    s.looked.journalRoom n = none := by
  obtain ⟨c, hc⟩ := looked_only s
  rw [hc]
  exact if_pos h

@[simp] theorem modTenant_owns (t : Nat) (f : Tenant → Tenant) (u : Nat) (key : Bytes) :
    (s.modTenant t f).owns u key = s.owns u key := rfl

@[simp] theorem modTenant_keySet (t : Nat) (f : Tenant → Tenant) (key : Bytes) :
    (s.modTenant t f).keySet key = s.keySet key := rfl

end

/-! ### Local keys -/

variable {s : State} {id : Nat} {d : Desc}

@[simp] theorem padOpts_nil : padOpts [] = [] := rfl

theorem staleFlags_local {key : Bytes} (h : s.keySet key = 0) : s.staleFlags key = [] := by
  simp [State.staleFlags, h, replyFlags, flagAt]

theorem readGate_local {fn : Nat} {key : Bytes} (howns : s.owns fn key = true) (hset : s.keySet key = 0)
    (floor : Option Nat) : s.readGate fn key floor = none := by
  simp [State.readGate, howns, hset, State.setGate]

theorem floorWaits_local {key : Bytes} (h : s.keySet key = 0) (floor : Option Nat) : s.floorWaits key floor = false := by
  simp [State.floorWaits, h]

/-- A read of a local key that is no browse step goes on to its data, its lookup counted. -/
theorem serveRead_local (hkey : Safety.LocalKey s d.fn d.key) (hstep : d.isStep = false) :
    s.serveRead d false = s.looked.serveData d false := by
  obtain ⟨hbuild, howns, hset⟩ := hkey
  have hgate : s.looked.readGate d.fn d.key (d.opt 0x08) = none := readGate_local (by simpa) (by simpa) _
  have hfloor : s.looked.floorWaits d.key (d.opt 0x08) = false := floorWaits_local (by simpa) _
  simp [State.serveRead, hbuild, State.readKey, hstep, State.restartLease, State.serveGated, hgate, hfloor]

/-- A record that is in the cache is delivered at once (R110). -/
theorem readRecord_cached {r : Rec} (hlost : r.lost = .no) (hcached : r.cached = true) (floored : Bool) :
    s.readRecord d r floored = s.deliver d r floored := by
  simp [State.readRecord, hlost, hcached]

/-- The value of a local record is delivered with its version and no flag. -/
theorem deliverValue_local {r : Rec} (hset : s.keySet r.key = 0) :
    s.deliverValue d r = s.answer d.id .done r.version [] (if d.op = 0x01 then [] else r.key) r.value := by
  rw [State.deliverValue, staleFlags_local hset]

/-! ### GET, GET_HOLD and VERIFY -/

theorem exec_get_waits (h : Safety.Waits s id 0x01 d) : exec (.get id) s = .next (s.serveRead d false) :=
  congrArg _ (serve_waits h _)

theorem exec_getGeneric_waits (h : Safety.Waits s id 0x02 d) : exec (.getGeneric id) s = .next (s.serveRead d false) :=
  congrArg _ (serve_waits h _)

theorem exec_getHold_waits (h : Safety.Waits s id 0x03 d) : exec (.getHold id) s = .next (s.serveRead d false) :=
  congrArg _ (serve_waits h _)

theorem exec_verify_waits (h : Safety.Waits s id 0x40 d) : exec (.verify id) s = .next (s.serveRead d false) :=
  congrArg _ (serve_waits h _)

theorem waits_op {op : Nat} (h : Safety.Waits s id op d) : d.op = op := by
  obtain ⟨_, hop, _⟩ := h
  exact hop

/-- A request on a local key by its key's record: no other opcode's checks stand before it. -/
theorem serveKey_reads {r : Rec} (hfind : (s.tenant d.fn).find d.key = some r) (hop : d.op = 0x01) :
    s.serveKey d false = s.readRecord d r false := by
  simp [State.serveKey, hfind, hop]

/-- A GET_HOLD that no hold blocks is granted the tenant's next hold, when the reply fits (R48, R52). -/
theorem deliverHold_granted {r : Rec} (hset : s.keySet r.key = 0)
    (hblock : (s.tenant d.fn).blockingHold r.key d.arrival s.tick = none)
    (hfits : replyFits (s.port d.port).txMtu d (padOpts (tlv 0x49 (toBe 4 (s.tenant d.fn).nextHold))) [] r.value = true) :
    s.deliverHold d r false = (s.modTenant d.fn (fun t => { t with
      holds := t.holds ++ [{ id := (s.tenant d.fn).nextHold, key := r.key, version := r.version, start := d.arrival,
                             dur := if d.bitsOf 31 0 = 0 then 1250 else d.bitsOf 31 0 }]
      nextHold := (t.nextHold + 1) % 2 ^ 32 })).answer d.id .done r.version
        (tlv 0x49 (toBe 4 (s.tenant d.fn).nextHold)) [] r.value := by
  have hflags : replyFlags (s.staleFor r.key) false = [] := by simp [State.staleFor, hset, replyFlags, flagAt]
  simp [State.deliverHold, hblock, hflags, hfits]

/-- Settles O18: each request passes the gate of a local key and is answered from the record in the cache. -/
theorem readsOfACachedRecord : Obligations.ReadsOfACachedRecord := by
  unfold Obligations.ReadsOfACachedRecord
  intro s id d r hkey hfind hlost hcached
  have hrkey : r.key = d.key := find_key hfind
  have hset : s.looked.keySet r.key = 0 := by
    obtain ⟨_, _, h⟩ := hkey
    rw [looked_keySet, hrkey, h]
  have hfind' : (s.looked.tenant d.fn).find d.key = some r := by rwa [looked_tenant]
  refine ⟨fun h => ?_, fun h hblock hroom hfits => ?_, fun k h hmac hver => ?_⟩
  · have hop := waits_op h
    rw [exec_get_waits h, serveRead_local hkey (by simp [Desc.isStep, hop])]
    simp [State.serveData, Desc.isStep, hop, serveKey_reads hfind' hop, readRecord_cached hlost hcached, State.deliver,
      deliverValue_local hset, waits_id h]
  · have hop := waits_op h
    have hgate : s.looked.holdGate d false = none := by
      simp [State.holdGate, hblock, waits_id h, hroom.not_ge]
    rw [exec_getHold_waits h, serveRead_local hkey (by simp [Desc.isStep, hop])]
    have hgrant := deliverHold_granted (s := s.looked) (d := d) hset (by simpa [hrkey] using hblock) (by simpa using hfits)
    rw [looked_tenant, hrkey, waits_id h] at hgrant
    simp [State.serveData, Desc.isStep, hop, State.serveKey, hfind, hgate, readRecord_cached hlost hcached, State.deliver,
      hgrant]
  · have hop := waits_op h
    rw [exec_verify_waits h, serveRead_local hkey (by simp [Desc.isStep, hop])]
    have hpasses : ¬ (d.param ≠ 0#64 ∧ d.param.toNat ≠ r.version) := by tauto
    simp only [State.serveData, Desc.isStep, hop, State.serveKey, hfind', readRecord_cached hlost hcached, State.deliver,
      State.deliverVerify, looked_macKey, hmac, staleFlags_local hset, waits_id h]
    simp [hpasses]

/-! ### Holds and cursors -/

/-- Settles O20: each command at the hold or the slot that its request names, and the two expiries. -/
theorem holdsAndCursors : Obligations.HoldsAndCursors := by
  unfold Obligations.HoldsAndCursors
  intro s id d
  refine ⟨fun h hwaits hbuild howns hhold => ?_, fun n hwaits hbuild howns hslot => ?_, fun c hwaits hcursor => ?_,
    fun t hold => rfl, fun t slot => rfl⟩
  · show Host.Outcome.next (s.serve id 0x04 _) = _
    rw [serve_waits hwaits, State.serveRelease]
    simp [hbuild, howns, hhold, waits_id hwaits]
    rfl
  · show Host.Outcome.next (s.serve id 0x10 _) = _
    rw [serve_waits hwaits, State.serveOpen]
    simp [hbuild, howns, hslot, waits_id hwaits, Tenant.openCursor, Cursor.id]
  · show Host.Outcome.next (s.serve id 0x13 _) = _
    rw [serve_waits hwaits, State.serveClose]
    simp [hcursor, waits_id hwaits]

/-! ### Browse steps and GET_GENERIC -/

/-- A record of a local key, chosen by a step or a generic lookup, is served. -/
theorem foundGate_local {k : Bytes} (hset : s.keySet k = 0) (go : State → State) : s.foundGate d k go = go s := by
  simp [State.foundGate, hset, State.setGate, floorWaits_local hset]

theorem exec_browse_waits (fwd : Bool) (h : Safety.Waits s id (if fwd then 0x11 else 0x12) d) :
    exec (if fwd then .browseNext id else .browsePrev id) s = .next (s.serveRead d false) := by
  cases fwd <;> exact congrArg _ (serve_waits h _)

/-- A browse step whose cursor stands in a local range restarts the cursor's lease and goes on to its data (R57). -/
theorem serveRead_step {c : Cursor} (hstep : d.isStep = true) (hbuild : s.rebuilding = false)
    (hcursor : (s.tenant d.fn).cursor (d.bitsOf 31 0) d.arrival = some c)
    (howns : s.owns d.fn (c.pos.getD c.start) = true) (hset : s.keySet (c.pos.getD c.start) = 0) :
    s.serveRead d false = (s.looked.modTenant d.fn
      (·.modCursor c.slot (·.restart d.arrival (s.tenant d.fn).profile.leaseTicks))).serveData d false := by
  have hgate : ∀ f, (s.looked.modTenant d.fn f).readGate d.fn (c.pos.getD c.start) (d.opt 0x08) = none :=
    fun f => readGate_local (by simpa) (by simpa) _
  have hfloor : ∀ f, (s.looked.modTenant d.fn f).floorWaits (c.pos.getD c.start) (d.opt 0x08) = false :=
    fun f => floorWaits_local (by simpa) _
  simp [State.serveRead, hbuild, State.readKey, hstep, State.restartLease, State.stepCursor, hcursor, State.serveGated, hgate,
    hfloor]

/-- A step that reaches a local record in the cache moves the cursor to it and delivers it (R55, R116). -/
theorem serveStep_cached {c : Cursor} {k : Bytes} {r : Rec} (hop : d.op ≠ 0x01 ∧ d.op ≠ 0x03 ∧ d.op ≠ 0x40)
    (hreach : s.browseStep d.fn c (d.op == 0x11) = .at k) (hfind : (s.tenant d.fn).find k = some r) (hlost : r.lost = .no)
    (hcached : r.cached = true) (hset : s.keySet k = 0) (hfits : replyFits (s.port d.port).txMtu d [] k r.value = true) :
    s.serveStep d c false =
      (s.modTenant d.fn (·.modCursor c.slot (fun c => { c with pos := some k }))).answer d.id .done r.version [] k r.value := by
  obtain rfl : r.key = k := find_key hfind
  obtain ⟨h1, h3, h40⟩ := hop
  simp only [State.serveStep, hreach, hfind, foundGate_local hset, State.stepTo, staleFlags_local hset, padOpts_nil, hfits,
    readRecord_cached hlost hcached, State.deliver, if_neg h3, if_neg h40]
  rw [deliverValue_local (by simpa using hset)]
  simp [h1]

/-- Settles O21: the step reaches its record from the restarted cursor, and GET_GENERIC its least key. -/
theorem browseAndGenericReads : Obligations.BrowseAndGenericReads := by
  unfold Obligations.BrowseAndGenericReads
  intro s id d k r hlost hcached hbuild hrkey hset
  refine ⟨fun c c1 fwd h hcursor howns hhere => ?_, fun h hmode howns hdset hleast hfind => ?_⟩
  · intro s1 hcursor1 hreach hfind hfits
    have hop := waits_op h
    have hdir : (d.op == 0x11) = fwd := by rw [hop]; cases fwd <;> rfl
    have hstep : d.isStep = true := by rw [Desc.isStep, hop]; cases fwd <;> rfl
    have hother : d.op ≠ 0x01 ∧ d.op ≠ 0x03 ∧ d.op ≠ 0x40 := by rw [hop]; cases fwd <;> decide
    have hgeneric : d.op ≠ 0x02 := by rw [hop]; cases fwd <;> decide
    have hport : s1.port d.port = s.port d.port := looked_port s d.port
    rw [exec_browse_waits fwd h, serveRead_step hstep hbuild hcursor howns hhere, State.serveData, if_neg hgeneric,
      if_pos hstep]
    simp only [State.stepCursor, Bool.false_eq_true, if_false]
    rw [show (s1.tenant d.fn).cursor (d.bitsOf 31 0) d.arrival = some c1 from hcursor1]
    simp only
    rw [serveStep_cached hother (hdir ▸ hreach) hfind hlost hcached ((looked_keySet s k).trans hset)
      (by rw [hport]; exact hfits), waits_id h]
  · have hop := waits_op h
    rw [exec_getGeneric_waits h, serveRead_local ⟨hbuild, howns, hdset⟩ (by simp [Desc.isStep, hop])]
    have hfound : s.looked.keySet k = 0 := by simpa using hset
    have hfind' : (s.looked.tenant d.fn).find k = some r := by rwa [looked_tenant]
    simp only [State.serveData, hop, if_true, State.serveGeneric, hmode, looked_prefixLeast, hleast, State.serveFound, hfind',
      foundGate_local hfound, readRecord_cached hlost hcached, State.deliver]
    rw [deliverValue_local (by rwa [hrkey]), waits_id h, hrkey]
    simp [hop]

/-! ### Plain writes -/

/-- A plain write on a local key that passes its gate, its holds and the journal's room enters the order (R38, R49, R51, R109,
R300). -/
theorem serveWrite_admitted {hold : Option Hold} (late : Bool) (hkey : Safety.LocalKey s d.fn d.key)
    (hshort : s.keyShort d.fn 0 = none) (hcool : s.thermalOn = false) (hhold : s.holdCheck d = .ok hold)
    (hroom : s.ledger.used + s.reserved + (s.writeEntry d hold).room ≤ commitArea) :
    s.serveWrite d late = (s.looked.useHold d.fn hold).enterOrder d.id (s.writeEntry d hold) late := by
  obtain ⟨hbuild, howns, hset⟩ := hkey
  have hgate : ∀ n, s.looked.writeGate d.fn d.key n = none := by
    simp [State.writeGate, howns, hset, State.writeSet, hshort, hcool]
  have heset : (s.writeEntry d hold).set = 0 := hset
  simp [State.serveWrite, hbuild, hgate, hhold, looked_journalRoom s hroom, Entry.versionsDiffer, heset]

/-- A local write enters the order; ACCEPTED leaves now where the result is late or a value must be read (R43, R98). -/
theorem enterOrder_write {e : Entry} (late : Bool) (hset : e.set = 0) (hkind : e.kind = .write) :
    s.enterOrder id e late =
      ((if late || !e.unread.isEmpty then (s.setPhase id .ordered).accept id .ordered
        else s.setPhase id .ordered).fetchUnread id e).enqueueLocal e := by
  simp [State.enterOrder, hset, State.acceptEntry, hkind]

/-- Settles O22: the five opcodes share one command, which admits the write. -/
theorem writesAreAdmitted : Obligations.WritesAreAdmitted := by
  unfold Obligations.WritesAreAdmitted
  intro s id d hold late hkey hshort hcool hhold hroom s1 e s2 s3 t
  have hadmit : ∀ {op : Nat}, Safety.Waits s id op d → s.writeCommand id op late = t := by
    intro op h
    rw [State.writeCommand, serve_waits h, serveWrite_admitted late hkey hshort hcool hhold hroom, waits_id h,
      enterOrder_write late hkey.2.2 rfl]
    rfl
  exact ⟨fun h => congrArg _ (hadmit h), fun h => congrArg _ (hadmit h), fun h => congrArg _ (hadmit h),
    fun h => congrArg _ (hadmit h), fun h => congrArg _ (hadmit h)⟩

/-! ### Commits and destage -/

/-- The front entry's effects: those that a run has decided, or those of a plain write at its place. -/
theorem frontEffects_decided {e : Entry} {rest : List Entry} {fx : Effects} (horder : s.ledger.order = e :: rest)
    (hread : e.unread = [])
    (hfx : e.effects = some fx ∨ (e.effects = none ∧ e.kind = .write ∧ s.decideWrite e = .ok fx)) :
    s.frontEffects = some (e, fx) := by
  rcases hfx with h | ⟨h, hkind, hdecide⟩
  · simp [State.frontEffects, horder, hread, h]
  · simp [State.frontEffects, horder, hread, h, hkind, hdecide]

/-- A complete commit record on a powered drive commits the front entry (R42, R298). -/
theorem exec_journalRecordComplete_commits {e : Entry} {rest : List Entry} {fx : Effects} (hrails : s.power.rails = .on)
    (horder : s.ledger.order = e :: rest) (hread : e.unread = [])
    (hfx : e.effects = some fx ∨ (e.effects = none ∧ e.kind = .write ∧ s.decideWrite e = .ok fx)) :
    exec .journalRecordComplete s = .next (s.commitEntry e s.ledger.digestCount fx).watchJournal.popOrder := by
  show execJournalRecordComplete s = _
  simp [execJournalRecordComplete, hrails, frontEffects_decided horder hread hfx]

/-- Settles O23: the commit by `exec_journalRecordComplete_commits`, and the oldest record's destage with nothing in its way. -/
theorem recordsCommitAndDestage : Obligations.RecordsCommitAndDestage := by
  unfold Obligations.RecordsCommitAndDestage
  refine ⟨fun s e rest fx hrails horder hread hfx => ?_, fun s r rest hjournal hdark hlimit hdone => ?_⟩
  · exact exec_journalRecordComplete_commits hrails horder hread hfx
  · show execDestageComplete s = _
    simp [execDestageComplete, hjournal, hdark, hlimit, hdone]

end Sys2Proof.Laws
end

section
/-! PROOFS. The place of an entry in the local order: a day's close (4.4.2) and a committed write (1.2, 1.4). -/
namespace Sys2Proof.Laws
open Sys2Proof Sys2Proof.Machine

/-! ### Tenants -/

/-- A tenant that exists shows its change. -/
theorem tenant_modTenant_same {s : State} {t : Nat} (h : t < s.tenants.length) (f : Tenant → Tenant) :
    (s.modTenant t f).tenant t = f (s.tenant t) := by
  simp [State.tenant, State.modTenant, h]

/-- Every other tenant is as before. -/
theorem tenant_modTenant_ne (s : State) {t u : Nat} (h : u ≠ t) (f : Tenant → Tenant) :
    (s.modTenant t f).tenant u = s.tenant u := by
  simp [State.tenant, State.modTenant, Ne.symm h]

/-! ### CLOSE_DAY -/

/-- What a close at its place records of its tenant (R176, R177). -/
def dayClosed (day wall tick seq : Nat) (t : Tenant) : Tenant :=
  { t with day := day, closeTime := wall, closeShown := wall, closeTick := tick, closeSeq := seq, closedOnce := true }

/-- A close of the current day, in the drive's own order, records it in its tenant; beside that it moves the digest and
answers its requester. -/
theorem applyClose_moves {s : State} {e : Entry} (hset : e.set = 0)
    (hday : (s.tenant e.tenant).day = e.param.toNat % 2 ^ 32) (hnext : (s.tenant e.tenant).day + 1 < 2 ^ 32) (i : Nat) :
    ∃ a b ds l, s.applyClose e i =
      { s.modTenant e.tenant (dayClosed ((s.tenant e.tenant).day + 1) e.wall s.tick (s.ledger.nextSeq - 1)) with
        portA := a, portB := b, descs := ds, ledger := l } := by
  unfold State.applyClose
  rw [if_neg (not_not.mpr hday), if_pos hnext, if_pos hnext]
  simp only [State.chainEntry, hset, if_true, State.nextSeqOf]
  obtain ⟨a, b, ds, h⟩ := replyEntry_only _ e .done _ [] _
  exact ⟨a, b, ds, _, h⟩

/-- A close at the front of an order that holds nothing else leaves the order empty. -/
theorem settled_close {s : State} {e : Entry} (horder : s.ledger.order = [e]) (hkind : e.kind = .closeDay) (hset : e.set = 0)
    (hday : (s.tenant e.tenant).day = e.param.toNat % 2 ^ 32) (hnext : (s.tenant e.tenant).day + 1 < 2 ^ 32) :
    ∃ a b ds l, s.settled =
      { s.modTenant e.tenant (dayClosed ((s.tenant e.tenant).day + 1) s.ledger.wall s.tick (s.ledger.nextSeq - 1)) with
        portA := a, portB := b, descs := ds, ledger := l } ∧ l.order = [] := by
  obtain ⟨a, b, ds, l, h⟩ := applyClose_moves (s := s) (e := { e with tick := s.tick, wall := s.ledger.wall }) hset hday hnext
    s.ledger.digestCount
  refine ⟨a, b, ds, { l with order := [] }, ?_, rfl⟩
  obtain ⟨⟩ := e
  subst hkind
  simp only [State.settled, horder, State.settle, List.length_singleton]
  rw [h]

/-- An entry put into an empty order is its only entry. -/
theorem enter_nil {x : Ledger} (h : x.order = []) (e : Entry) : x.enter e = { x with order := [e] } := by
  simp [Ledger.enter, h, insertEntry]

/-- Settles O34: the close enters an empty order, and is settled there at once. -/
theorem dayCloses : Obligations.DayCloses := by
  unfold Obligations.DayCloses
  intro s id d hwaits hspan horder hlen hid hpresent hmay hfence hset hday hnext
  have hserve : s.serveCloseDay d = (s.accept d.id .ordered).enqueueLocal (s.closeEntry d (closeTarget d)) := by
    have hperm : (d.fn < 32 && !(s.tenant (closeTarget d)).profile.closeOk) = false := by
      rcases hmay with h | h
      · simp [show ¬ d.fn < 32 by omega]
      · simp [h]
    simp [State.serveCloseDay, hpresent, hperm, hspan, hset, hfence]
  obtain ⟨a, b, ds, haccept⟩ := accept_only s d.id .ordered
  obtain ⟨a', b', ds', l, hsettled, hempty⟩ := settled_close
    (s := { s.accept d.id .ordered with ledger := (s.accept d.id .ordered).ledger.enter (s.closeEntry d (closeTarget d)) })
    (e := s.closeEntry d (closeTarget d)) (by rw [haccept, enter_nil horder]) rfl hset (by rw [haccept]; exact hday)
    (by rw [haccept]; exact hnext)
  refine ⟨_, congrArg Host.Outcome.next (serve_waits hwaits _), ?_⟩
  rw [hserve, State.enqueueLocal, hsettled, haccept, enter_nil horder]
  refine ⟨?_, fun n hn => ?_, hempty⟩
  · exact tenant_modTenant_same (s := s) (hlen ▸ hid) _
  · exact tenant_modTenant_ne s hn _

/-! ### Records in their place -/

/-- Without a table no two keys have one weight string. -/
theorem weights_none_injective : Function.Injective (weights none) :=
  List.map_injective_iff.mpr fun _ _ h => BitVec.eq_of_toNat_eq h

/-- A record put under its key is found there, and every other key holds what it held. -/
theorem find_insertRec (r : Rec) (k : Bytes) (l : List Rec) :
    (insertRec none r l).find? (fun x => x.key == k) = if r.key = k then some r else l.find? (fun x => x.key == k) := by
  induction l with
  | nil => by_cases hk : r.key = k <;> simp [insertRec, hk]
  | cons x rest ih =>
    cases hcmp : cmpKeys none r.key x.key with
    | lt =>
      have hins : insertRec none r (x :: rest) = r :: x :: rest := by simp [insertRec, hcmp]
      by_cases hk : r.key = k <;> simp [hins, hk]
    | eq =>
      have hins : insertRec none r (x :: rest) = r :: rest := by simp [insertRec, hcmp]
      have hx : r.key = x.key := weights_none_injective ((cmpKeys_eq_iff _ _ _).mp hcmp)
      by_cases hk : r.key = k <;> simp [hins, ← hx, hk]
    | gt =>
      have hins : insertRec none r (x :: rest) = x :: insertRec none r rest := by simp [insertRec, hcmp]
      have hx : x.key ≠ r.key := fun h => by simp [h, (cmpKeys_eq_iff none r.key r.key).mpr rfl] at hcmp
      by_cases hxk : x.key = k
      · simp [hins, hxk, Ne.symm (hxk ▸ hx)]
      · simp [hins, hxk, ih]

theorem find_put {t : Tenant} (hcoll : t.coll = none) (r : Rec) (k : Bytes) :
    (t.put r).find k = if r.key = k then some r else t.find k := by
  simp only [Tenant.put, Tenant.find, hcoll, find_insertRec]

/-! ### What the parts of a commit change -/

/-- Counting, and an event where a condition holds, change the counters and the events alone. -/
theorem bump_raise_only (s : State) (addr : Nat) (p : Prop) [Decidable p] (code a b c : Nat) :
    ∃ n ev, (if p then (s.bump addr).raise code a b c else s.bump addr) = { s with counters := n, events := ev } := by
  obtain ⟨n, hn⟩ := bumpBy_only s addr 1
  obtain ⟨ev, hev⟩ := raise_only { s with counters := n } code a b c
  rw [State.bump, hn, hev]
  split
  · exact ⟨n, ev, rfl⟩
  · exact ⟨n, s.events, rfl⟩

/-- One invocation of the write key changes the keys, the counters and the events, nothing else. -/
theorem encryptOnce_only (s : State) (t : Nat) :
    ∃ x c ev, s.encryptOnce t = { s with secure := x, counters := c, events := ev } := by
  unfold State.encryptOnce
  split
  · exact ⟨s.secure, s.counters, s.events, rfl⟩
  · exact ⟨_, bump_raise_only _ _ _ _ _ _ _⟩

/-- A sealed record keeps what it holds. -/
theorem sealRec_only (s : State) (t : Nat) (r : Rec) :
    ∃ g n z, s.sealRec t r = { r with gen := g, nonce := n, sealed := z } := by
  unfold State.sealRec
  split <;> exact ⟨_, _, _, rfl⟩

/-- A record sealed up is put in its tenant; beside that the keys, the counters and the events move on. -/
theorem sealUp_puts (s : State) (t : Nat) (r : Rec) :
    ∃ g n z x c ev, s.sealUp t r =
      { s.modTenant t (·.put { r with gen := g, nonce := n, sealed := z }) with secure := x, counters := c, events := ev } := by
  obtain ⟨x, c, ev, henc⟩ := encryptOnce_only s t
  obtain ⟨g, n, z, hseal⟩ := sealRec_only s t r
  exact ⟨g, n, z, x, c, ev, by rw [State.sealUp, henc, hseal]; rfl⟩

/-- A value stored is a record put in its tenant; beside that the keys, the counters, the events and the media move on. -/
theorem storeValue_puts (s : State) (t : Nat) (key v : Bytes) (seq : Nat) :
    ∃ g n z x c ev m, s.storeValue t key v seq [] =
      { s.modTenant t (·.put { s.compressed key v seq with gen := g, nonce := n, sealed := z }) with
        secure := x, counters := c, events := ev, media := m } := by
  obtain ⟨g, n, z, x, c, ev, hseal⟩ := sealUp_puts s t (s.compressed key v seq)
  obtain ⟨c', hc⟩ := bumpBy_only (s.sealUp t (s.compressed key v seq)) 0x00060188
    (fallbacks ((s.sealUp t (s.compressed key v seq)).keyClass key) v)
  unfold State.storeValue
  simp only [List.find?_nil, hc]
  rw [hseal]
  exact ⟨g, n, z, x, c', ev, _, rfl⟩

/-- Metering an entry's writes leaves its tenant's records. -/
theorem meterWrites_only (s : State) (e : Entry) (ws : List (Bytes × Option Bytes)) :
    ∃ f : Tenant → Tenant, (∀ x, (f x).recs = x.recs) ∧ s.meterWrites e ws = s.modTenant e.tenant f := by
  unfold State.meterWrites
  split
  · refine ⟨_, fun _ => ?_, rfl⟩
    rfl
  · exact ⟨id, fun _ => rfl, by simp [State.modTenant]⟩

/-- Watching the commit area moves JOURNAL_HIGH and may raise its event. -/
theorem watchJournal_only (s : State) :
    ∃ h ev, s.watchJournal = { s with ledger := { s.ledger with journalHigh := h }, events := ev } := by
  unfold State.watchJournal
  dsimp only
  split
  · exact ⟨_, _, (raise_only _ _ _ _ _).choose_spec⟩
  · exact ⟨_, s.events, rfl⟩

/-- The last entry taken off the order leaves it empty, with nothing to settle. -/
theorem popOrder_single {s : State} {e : Entry} (h : s.ledger.order = [e]) :
    s.popOrder = { s with ledger := { s.ledger with order := [] } } := by
  simp [State.popOrder, h, State.settled, State.settle]

/-! ### A committed PUT -/

/-- The commit of one value in set 0 puts its record under the drive's next sequence number. -/
theorem commitEntry_puts {s : State} {e : Entry} (v : Bytes) (hkind : e.kind = .write) (hset : e.set = 0) (i : Nat) :
    ∃ (f : Tenant → Tenant) (g n : Nat) (z : Bytes), (∀ x, (f x).recs = x.recs) ∧
      let u := s.commitEntry e i { writes := [(e.key, some v)], result := [], legs := [] }
      u.tenants = s.tenants.modify e.tenant (fun x => f
        (x.put { s.compressed e.key v s.ledger.nextSeq with gen := g, nonce := n, sealed := z })) ∧
      u.ledger.nextSeq = s.ledger.nextSeq + 1 ∧ u.ledger.order = s.ledger.order := by
  obtain ⟨g, n, z, x, c, ev, m, hstore⟩ := storeValue_puts (s.issueSeq 0) e.tenant e.key v s.ledger.nextSeq
  generalize hw : (s.issueSeq 0).storeValue e.tenant e.key v s.ledger.nextSeq [] = w at hstore
  obtain ⟨f, hf, hmeter⟩ := meterWrites_only w e [(e.key, some v)]
  have htenants : w.tenants = s.tenants.modify e.tenant
      (·.put { s.compressed e.key v s.ledger.nextSeq with gen := g, nonce := n, sealed := z }) := by rw [hstore]; rfl
  have hledger : w.ledger = { s.ledger with nextSeq := s.ledger.nextSeq + 1 } := by rw [hstore]; rfl
  refine ⟨f, g, n, z, hf, ?_⟩
  simp only [State.commitEntry, State.installEntry, List.isEmpty_cons, Bool.not_false, if_true, hset, State.nextSeqOf,
    List.foldl_cons, List.foldl_nil, State.applyWrite, hkind, beq_self_eq_true, Bool.true_or, Bool.and_self, hw, hmeter,
    State.chainEntry]
  generalize State.recordOf _ _ _ _ = r
  generalize (State.tenant _ _).recs = recs
  obtain ⟨a, b, ds, hreply⟩ := replyEntry_only { (w.modTenant e.tenant f).addRecord r recs with ledger := _ } e .done
    s.ledger.nextSeq [] []
  rw [hreply]
  refine ⟨?_, (congrArg Ledger.nextSeq hledger :), (congrArg Ledger.order hledger :)⟩
  show w.tenants.modify e.tenant f = _
  rw [htenants, List.modify_modify_eq]
  rfl

/-- Settles O24: `commitEntry_puts` says where the record stands, and taking the entry off the order changes no tenant. -/
theorem committedWriteIsTheRecord : Obligations.CommittedWriteIsTheRecord := by
  unfold Obligations.CommittedWriteIsTheRecord
  intro s e v hrails horder hread hfx hkind hset htenant hlen hcoll hdecide
  obtain ⟨f, g, n, z, hf, htenants, hseq, hentries⟩ := commitEntry_puts (s := s) v hkind hset s.ledger.digestCount
  refine ⟨_, exec_journalRecordComplete_commits hrails horder hread (.inr ⟨hfx, hkind, hdecide⟩), ?_⟩
  generalize s.commitEntry e s.ledger.digestCount _ = u at htenants hseq hentries ⊢
  obtain ⟨h, ev, hwatch⟩ := watchJournal_only u
  have hlast : u.watchJournal.ledger.order = [e] := by rw [hwatch]; exact hentries.trans horder
  rw [popOrder_single hlast, hwatch]
  have hfind : ∀ k, ((u.tenant e.tenant).find k) = if e.key = k then
      some { s.compressed e.key v s.ledger.nextSeq with gen := g, nonce := n, sealed := z } else (s.tenant e.tenant).find k := by
    intro k
    have htenant' : u.tenant e.tenant = f ((s.tenant e.tenant).put
        { s.compressed e.key v s.ledger.nextSeq with gen := g, nonce := n, sealed := z }) := by
      rw [State.tenant, htenants]
      exact tenant_modTenant_same (s := s) (hlen ▸ htenant) _
    rw [htenant', Tenant.find, hf]
    exact find_put hcoll _ k
  refine ⟨⟨_, (hfind e.key).trans (if_pos rfl), rfl⟩, fun k hk => (hfind k).trans (if_neg (Ne.symm hk)), hseq, rfl⟩

end Sys2Proof.Laws
end

section
/-! PROOFS. The end of a flash read (3.3, 8.4): what a block and a codeword learn from it, and what the request that waits
answers. -/
namespace Sys2Proof.Laws
open Sys2Proof Sys2Proof.Machine

/-! ### Records changed in place -/

/-- A record changed in place is found changed, and every other key holds what it held. -/
theorem find_modRec (t : Tenant) (key k : Bytes) (f : Rec → Rec) (hf : ∀ r, (f r).key = r.key) :
    (t.modRec key f).find k = if k = key then (t.find k).map f else t.find k := by
  have hcomp : (fun r : Rec => (if r.key == key then f r else r).key == k) = fun r => r.key == k := by
    funext r
    split <;> simp [hf]
  simp only [Tenant.find, Tenant.modRec, List.find?_map, Function.comp_def, hcomp]
  cases hfind : t.recs.find? (fun r => r.key == k) with
  | none => simp
  | some r =>
    have hkey : r.key = k := find_key hfind
    by_cases h : k = key <;> simp [hkey, h]

/-! ### What a read counts and its block learns -/

/-- A ladder outcome is counted, nothing else. -/
theorem ladderCounted_only (s : State) (o : ReadOutcome) : ∃ c, s.ladderCounted o = { s with counters := c } := by
  unfold State.ladderCounted
  split
  · split
    · exact ⟨s.counters, rfl⟩
    · split
      · exact bumpBy_only _ _ _
      · split <;> exact bumpBy_only _ _ _
  · exact bumpBy_only _ _ _
  · exact ⟨s.counters, rfl⟩

/-- New offsets of a block change the media and may raise an event. -/
theorem setOffsets_only (s : State) (blk : BlockId) (f : Int → Int) :
    ∃ m ev, s.setOffsets blk f = { s with media := m, events := ev } := by
  unfold State.setOffsets
  dsimp only
  split
  · exact ⟨_, _, (raise_only _ _ _ _ _).choose_spec⟩
  · exact ⟨_, s.events, rfl⟩

/-- The offsets of a ladder step change the media and may raise an event. -/
theorem stepOffsets_only (s : State) (p : Bool) (m0 : Media) (blk : BlockId) (f : Int → Int) : ∃ m ev,
    (if p then ({ s with media := m0 } : State).setOffsets blk f else { s with media := m0 }) =
      { s with media := m, events := ev } := by
  cases p
  · exact ⟨m0, s.events, rfl⟩
  · exact setOffsets_only { s with media := m0 } blk f

/-- What a block learns from a read changes the media and may raise an event. -/
theorem blockRead_only (s : State) (blk : BlockId) (o : ReadOutcome) :
    ∃ m ev, s.blockRead blk o = { s with media := m, events := ev } := by
  unfold State.blockRead
  dsimp only
  split
  · rename_i n
    obtain ⟨m, ev, h⟩ := stepOffsets_only s (1 ≤ n.val && n.val ≤ 4)
      (s.media.modBlock blk (fun b => { b with reads := b.reads + 1 })) blk (· + ladderShift n.val)
    rw [h]
    split
    · exact ⟨_, ev, rfl⟩
    · exact ⟨m, ev, rfl⟩
  · exact ⟨_, s.events, rfl⟩

/-! ### Lost values -/

/-- A record flagged lost. -/
def lostRec (why : Lost) (r : Rec) : Rec := { r with lost := why, cached := false }

/-- Flagging a value changes its tenant, the media and the sets' fences. -/
theorem flagLost_only (s : State) (v : Nat × Bytes × Nat) (why : Lost) : ∃ m st, s.flagLost v why =
    { s.modTenant v.1 (·.modRec v.2.1 (lostRec why)) with media := m, span := { s.span with sets := st } } := by
  unfold State.flagLost State.fence
  dsimp only
  split
  · exact ⟨_, s.span.sets, rfl⟩
  · exact ⟨_, _, rfl⟩

/-- The values of a codeword flagged one after another change tenants, media and the sets' fences. -/
theorem foldl_flagLost_only (l : List (Nat × Bytes × Nat)) (s : State) (why : Lost) : ∃ ts m st,
    l.foldl (fun s v => s.flagLost v why) s = { s with tenants := ts, media := m, span := { s.span with sets := st } } := by
  induction l generalizing s with
  | nil => exact ⟨s.tenants, s.media, s.span.sets, rfl⟩
  | cons v l ih =>
    obtain ⟨m, st, hv⟩ := flagLost_only s v why
    obtain ⟨ts, m', st', hl⟩ := ih (s.flagLost v why)
    exact ⟨ts, m', st', by rw [List.foldl_cons, hl, hv]; rfl⟩

theorem find_flagLost (s : State) (v : Nat × Bytes × Nat) (why : Lost) {t : Nat} (ht : t < s.tenants.length) (k : Bytes) :
    ((s.flagLost v why).tenant t).find k =
      if t = v.1 ∧ k = v.2.1 then ((s.tenant t).find k).map (lostRec why) else (s.tenant t).find k := by
  obtain ⟨m, st, h⟩ := flagLost_only s v why
  rw [h]
  show (((s.modTenant v.1 _).tenant t).find k) = _
  by_cases htv : t = v.1
  · subst htv
    rw [tenant_modTenant_same ht, find_modRec _ _ _ (lostRec why) (fun _ => rfl)]
    simp
  · rw [tenant_modTenant_ne s htv]
    simp [htv]

/-- A value that is among those flagged is lost, as often as it is named. -/
theorem find_foldl_flagLost (l : List (Nat × Bytes × Nat)) (s : State) (why : Lost) {t : Nat} (ht : t < s.tenants.length)
    (k : Bytes) :
    ((l.foldl (fun s v => s.flagLost v why) s).tenant t).find k =
      if (∃ v ∈ l, t = v.1 ∧ k = v.2.1) then ((s.tenant t).find k).map (lostRec why) else (s.tenant t).find k := by
  induction l generalizing s with
  | nil => simp
  | cons v l ih =>
    have hlen : t < (s.flagLost v why).tenants.length := by
      obtain ⟨m, st, h⟩ := flagLost_only s v why
      rw [h]
      simpa using ht
    have hidem : ∀ o : Option Rec, (o.map (lostRec why)).map (lostRec why) = o.map (lostRec why) := by
      intro o
      cases o <;> rfl
    rw [List.foldl_cons, ih _ hlen, find_flagLost s v why ht]
    by_cases hv : t = v.1 ∧ k = v.2.1 <;> by_cases hl : ∃ w ∈ l, t = w.1 ∧ k = w.2.1 <;> simp [hv, hl, hidem]

/-- Events raised one after another change the events alone. -/
theorem foldl_raise_only (l : List Nat) (s : State) (code : Nat) :
    ∃ ev, l.foldl (fun s t => s.raise code t 0 0) s = { s with events := ev } := by
  induction l generalizing s with
  | nil => exact ⟨s.events, rfl⟩
  | cons a l ih =>
    obtain ⟨ev, ha⟩ := raise_only s code a 0 0
    obtain ⟨ev', hl⟩ := ih (s.raise code a 0 0)
    exact ⟨ev', by rw [List.foldl_cons, hl, ha]⟩

/-- A codeword lost changes tenants, media, events and the sets' fences. -/
theorem loseCodeword_only (s : State) (values : List (Nat × Bytes × Nat)) : ∃ ts m ev st,
    s.loseCodeword values = { s with tenants := ts, media := m, events := ev, span := { s.span with sets := st } } := by
  obtain ⟨ev, hraise⟩ := foldl_raise_only ((values.eraseDups.filter s.stands).map (·.1)).eraseDups s 0x8301
  obtain ⟨ts, m, st, hflag⟩ := foldl_flagLost_only (values.eraseDups.filter s.stands) { s with events := ev } .uncorrectable
  exact ⟨ts, m, ev, st, by rw [State.loseCodeword, hraise, hflag]⟩

/-- A value that stands in a lost codeword is flagged (R309). -/
theorem find_loseCodeword {s : State} {values : List (Nat × Bytes × Nat)} {v : Nat × Bytes × Nat} (hmem : v ∈ values)
    (hstands : s.stands v = true) (ht : v.1 < s.tenants.length) :
    ((s.loseCodeword values).tenant v.1).find v.2.1 = ((s.tenant v.1).find v.2.1).map (lostRec .uncorrectable) := by
  obtain ⟨ev, hraise⟩ := foldl_raise_only ((values.eraseDups.filter s.stands).map (·.1)).eraseDups s 0x8301
  have hin : v ∈ values.eraseDups.filter s.stands := by simp [hmem, hstands]
  rw [State.loseCodeword, hraise]
  exact (find_foldl_flagLost _ { s with events := ev } _ ht v.2.1).trans (if_pos ⟨v, hin, rfl, rfl⟩)

/-! ### The request goes on -/

/-- A descriptor changed is found changed. -/
theorem desc_modDesc {s : State} {id : Nat} {d : Desc} (h : s.desc id = some d) (f : Desc → Desc) (hf : ∀ x, (f x).id = x.id) :
    (s.modDesc id f).desc id = some (f d) := by
  have hcomp : (fun x : Desc => (if x.id = id then f x else x).id == id) = fun x => x.id == id := by
    funext x
    split <;> simp [hf]
  have hfind : s.descs.find? (fun x => x.id == id) = some d := h
  simp [State.desc, State.modDesc, List.find?_map, hcomp, hfind, desc_id h]

/-- A read that has ended: its transfers and its reference are gone. -/
def readEnded (s : State) (id : Nat) : State :=
  (s.dropFlows id).modDesc id (fun d => { d with refs := d.refs - 1, fetch := none })

/-- The end of a read of a record that stands and is not lost yet. -/
theorem readComplete_stands {s : State} {id : Nat} {d : Desc} {r : Rec} (hdesc : s.desc id = some d) (hrefs : d.refs ≠ 0)
    (htarget : d.readTarget = some r) (hfind : (s.tenant d.fn).find r.key = some r) (hlost : r.lost = .no) (o : ReadOutcome)
    (blk : BlockId) (others : List (Nat × Bytes × Nat)) :
    s.readComplete id o blk others =
      ((((readEnded s id).blockRead blk o).ladderCounted o).recordRead d.fn r o others).afterRead d r (outcomeLost o) := by
  obtain ⟨m, ev, hblock⟩ := blockRead_only (readEnded s id) blk o
  have hunlost : ((readEnded s id).blockRead blk o).lostAlready d.fn r = none := by
    rw [hblock, State.lostAlready]
    show (((s.tenant d.fn).find r.key).filter _).map _ = none
    simp [hfind, hlost]
  unfold readEnded at hunlost ⊢
  simp only [State.readComplete, hdesc, if_neg hrefs, htarget, hunlost]

/-- What a read's end changes beside the record: cinch, descriptors, media, events and counters. -/
theorem readEnded_counted_only (s : State) (id : Nat) (blk : BlockId) (o : ReadOutcome) : ∃ m ev c,
    ((readEnded s id).blockRead blk o).ladderCounted o = { readEnded s id with media := m, events := ev, counters := c } := by
  obtain ⟨m, ev, hblock⟩ := blockRead_only (readEnded s id) blk o
  obtain ⟨c, hc⟩ := ladderCounted_only ((readEnded s id).blockRead blk o) o
  exact ⟨m, ev, c, by rw [hc, hblock]⟩

theorem readEnded_desc {s : State} {id : Nat} {d : Desc} (h : s.desc id = some d) (hrefs : d.refs = 1) :
    (readEnded s id).desc id = some { d with refs := 0, fetch := none } := by
  have hdrop : (s.dropFlows id).desc id = some d := h
  refine (desc_modDesc hdrop _ ?_).trans ?_
  · exact fun _ => rfl
  · rw [hrefs]

/-- A READ_COMPLETE of a request that is no replica's read. -/
theorem exec_readComplete_own {s : State} {id : Nat} (h : ∀ x ∈ s.ledger.reads, x.1 ≠ id) (o : ReadOutcome) (blk : BlockId)
    (others : List (Nat × Bytes × Nat)) :
    exec (.readComplete id o blk others) s = .next (s.readComplete id o blk others) := by
  have hnone : s.ledger.reads.find? (fun x => x.1 == id) = none := by
    rw [List.find?_eq_none]
    simpa using h
  show execReadComplete id o blk others s = _
  rw [execReadComplete, hnone]

/-- Settles O19: a GET of an uncached record begins a read; its end is `readComplete_stands`, with the record in the cache or
its codeword lost. -/
theorem readsFromFlash : Obligations.ReadsFromFlash := by
  unfold Obligations.ReadsFromFlash
  intro s id d r hfind hlost
  have hrkey : r.key = d.key := find_key hfind
  refine ⟨fun hkey h hcached => ?_, fun blk others hdesc hop hrefs hreads hphase hfetch hlen hfn hset => ?_⟩
  · have hop := waits_op h
    have hfind' : (s.looked.tenant d.fn).find d.key = some r := by rwa [looked_tenant]
    rw [exec_get_waits h, serveRead_local hkey (by simp [Desc.isStep, hop])]
    simp [State.serveData, Desc.isStep, hop, serveKey_reads hfind' hop, State.readRecord, hlost, hcached, waits_id h]
  · have htarget : d.readTarget = some r := by simp [Desc.readTarget, hphase, hfetch]
    have hends := fun o => readComplete_stands hdesc (by omega) htarget (by rw [hrkey]; exact hfind) hlost o blk others
    refine ⟨fun n => ?_, ?_⟩
    · obtain ⟨m, ev, c, hcount⟩ := readEnded_counted_only s id blk (.step n)
      obtain ⟨c', hbump⟩ := bumpBy_only { readEnded s id with media := m, events := ev, counters := c }
        (0x00080000 + 0x1000 * d.fn + 0x408) 1
      refine ⟨({ readEnded s id with media := m, events := ev, counters := c' } : State).modTenant d.fn (·.modRec d.key
        (fun y => { y with cached := y.cached || y.version == r.version })), ?_, ?_, readEnded_desc hdesc hrefs, ?_, rfl⟩
      · rw [exec_readComplete_own hreads, hends, hcount, State.recordRead, State.bumpTkp, State.bump, hbump, hrkey]
        simp only [State.afterRead, hphase, outcomeLost, if_true, State.deliver, hop]
        simp only [Nat.reduceEqDiff, if_false]
        rw [deliverValue_local (by rw [hrkey]; exact hset), desc_id hdesc, if_pos hop]
      · exact tenant_modTenant_same (s := s) (by omega) _
      · cases d.port <;> rfl
    · obtain ⟨m, ev, c, hcount⟩ := readEnded_counted_only s id blk .lost
      have hread : ({ readEnded s id with media := m, events := ev, counters := c } : State).tenant d.fn = s.tenant d.fn := rfl
      generalize hw : ({ readEnded s id with media := m, events := ev, counters := c } : State) = w at hcount hread
      obtain ⟨ts, m', ev', st, hlose⟩ := loseCodeword_only w ((d.fn, r.key, r.version) :: others)
      have hstands : w.stands (d.fn, r.key, r.version) = true := by
        simp [State.stands, hread, hrkey, hfind, hlost]
      have hlocal : (w.loseCodeword ((d.fn, r.key, r.version) :: others)).staleFlags r.key = [] := by
        refine staleFlags_local ?_
        rw [hlose, ← hw, hrkey]
        exact hset
      have hlength : d.fn < w.tenants.length := by
        rw [← hw]
        exact hlen ▸ hfn
      refine ⟨w.loseCodeword ((d.fn, r.key, r.version) :: others), ?_, ?_, ?_, ?_, ?_⟩
      · rw [exec_readComplete_own hreads, hends, hcount, State.recordRead]
        simp [State.afterRead, hphase, outcomeLost, State.deliverLost, hop, hlocal, desc_id hdesc]
      · have hfound := find_loseCodeword (List.mem_cons_self ..) hstands hlength (values := (d.fn, r.key, r.version) :: others)
        simpa [hread, hrkey, hfind, lostRec] using hfound
      · rw [hlose, ← hw]
        exact readEnded_desc hdesc hrefs
      · rw [hlose, ← hw]
        cases d.port <;> rfl
      · rw [hlose, ← hw]
        rfl

end Sys2Proof.Laws
end

section
/-! PROOFS. Postings and posting programs (4.2, 4.3.3): their admission, and the run that decides the front entry. -/
namespace Sys2Proof.Laws
open Sys2Proof Sys2Proof.Machine

variable {s : State} {id : Nat} {d : Desc} {e : Entry}

/-! ### Admission -/

/-- An entry for which the engine and the commit area have room enters the local order. -/
theorem admitEngine_fits (late : Bool) (hset : e.set = 0) (hengine : s.engineRoom 0 e.cost = none)
    (hroom : s.ledger.used + s.reserved + e.room ≤ commitArea) :
    s.admitEngine d e late = ((s.useHolds d.fn d.holdIds).enterOrder d.id e late).notePeak := by
  simp [State.admitEngine, hset, hengine, State.journalRoom, hroom]

/-- A local range takes a write of a tenant with a current data key while thermal protection is off. -/
theorem writeSet_local {fn : Nat} (hshort : s.keyShort fn 0 = none) (hcool : s.thermalOn = false) (n : Nat) :
    s.writeSet fn 0 n = none := by
  simp [State.writeSet, hshort, hcool]

/-- Settles O32: both opcodes pass their stages on the state whose lookup is counted. -/
theorem postingsAreAdmitted : Obligations.PostingsAreAdmitted := by
  unfold Obligations.PostingsAreAdmitted
  intro s id d late hbuild s1 admitted
  refine ⟨fun legs h hstage1 hshort hcool hstage2 => ?_, fun r h hgate hset hfind hlost => ?_⟩
  · intro keys room hengine hroom
    have hserve : exec (.post id late) s = .next (s.servePost d late) := congrArg _ (serve_waits h _)
    have hstage1' : s.looked.postStage1 d = .ok (legs, 0) := hstage1
    have hstage2' : s.looked.postStage2 d legs = none := hstage2
    have hwrite : ∀ n, s.looked.writeSet d.fn 0 n = none := writeSet_local hshort hcool
    rw [hserve, State.servePost, hbuild]
    simp only [Bool.false_eq_true, if_false, hstage1', hwrite, hstage2']
    rw [admitEngine_fits late rfl hengine hroom, waits_id h, waits_op h, looked_tick]
    obtain ⟨c, hc⟩ := looked_only s
    simp only [admitted, s1, keys, room, hc]
  · intro e t room hholds hengine hroom
    obtain rfl := waits_id h
    have hserve : exec (.postProgram d.id late) s = .next (s.serveProgram d late) := congrArg _ (serve_waits h _)
    have hgate' : s.looked.writeGate d.fn d.key 0 = none := hgate
    have hfind' : (s.looked.tenant d.fn).find d.key = some r := hfind
    have hholds' : s.looked.programHolds d (s.looked.programEntry d r) (s.looked.runEntry (s.looked.programEntry d r)) = none :=
      hholds
    have heset : (s.looked.programEntry d r).set = 0 := hset
    have hguard : ((s.looked.programEntry d r).set != 0) = false := by rw [heset]; rfl
    rw [hserve, State.serveProgram, hbuild]
    simp only [Bool.false_eq_true, if_false, hgate', hfind', hlost, hholds', hguard, ne_eq, not_true_eq_false, Bool.false_and]
    refine congrArg Host.Outcome.next ((admitEngine_fits late ?_ ?_ ?_).trans ?_)
    · exact heset
    · exact hengine
    · exact hroom
    · rfl

/-! ### The front entry decided -/

theorem program_front {x : Ledger} {rest : List Entry} (horder : x.order = e :: rest) (hkind : e.kind = .program)
    (hread : e.unread = []) (hfx : e.effects = none) : x.program = some e := by
  simp [Ledger.program, horder, hkind, hread, hfx]

/-- The tree of the front program runs to its end, and the engine is free for what follows. -/
theorem exec_programTreeRun_runs {rest : List Entry} {t : Tree} (horder : s.ledger.order = e :: rest)
    (hkind : e.kind = .program) (hread : e.unread = []) (hfx : e.effects = none) (htree : s.engineTree = some t)
    (hmissing : s.treeMissing e (s.runTree (t.stepsLeft + 1) t) = []) :
    exec .programTreeRun s = .next (({ s with ledger := { s.ledger with tree := none } } : State).decideFront e
      (some (s.runTree (t.stepsLeft + 1) t)) (s.treeEffects e (s.runTree (t.stepsLeft + 1) t))) := by
  show execProgramTreeRun s = _
  simp [execProgramTreeRun, program_front horder hkind hread hfx, htree, hmissing]

/-- Effects that write something wait for their journal record. -/
theorem decideFront_waits {rest : List Entry} {fx : Effects} (horder : s.ledger.order = e :: rest) (hwrites : fx.writes ≠ [])
    (tree : Option Tree) : s.decideFront e tree (.ok fx) =
      { s with ledger := { s.ledger with order := { e with effects := some fx } :: rest } } := by
  simp [State.decideFront, hwrites, horder]

/-- Settles O33: `decideFront` on what stage 3 or the tree's end says. -/
theorem postingsRun : Obligations.PostingsRun := by
  unfold Obligations.PostingsRun
  intro s e rest horder hread hfx waits
  refine ⟨fun hkind => ?_, fun t hkind htree => ?_⟩
  · have hexec : exec .postingStage3 s = .next (s.decideFront e none (s.decidePost e)) := by
      show execPostingStage3 s = _
      simp [execPostingStage3, horder, hkind, hread, hfx]
    refine ⟨fun fx hdecide hwrites => ?_, fun st p key hdecide => ?_⟩
    · rw [hexec, hdecide, decideFront_waits horder hwrites]
    · rw [hexec, hdecide]
      simp [State.decideFront, State.countRefusal, hkind]
  · intro s1 t1
    have hexec := exec_programTreeRun_runs horder hkind hread hfx htree
    refine ⟨fun hmissing => ?_, fun fx hmissing heffects hwrites => ?_, fun fx hmissing heffects hwrites => ?_,
      fun st p key hmissing heffects => ?_⟩
    · show execProgramTreeRun s = _
      simp [execProgramTreeRun, program_front horder hkind hread hfx, htree, hmissing, t1]
    · rw [hexec hmissing, heffects]
      exact congrArg Host.Outcome.next (decideFront_waits (s := s1) horder hwrites _)
    · rw [hexec hmissing, heffects]
      simp [State.decideFront, hwrites, s1]
    · rw [hexec hmissing, heffects]
      simp [State.decideFront, hkind, s1, t1]

end Sys2Proof.Laws
end

section
/-! PROOFS. The ledger clock (4.4, 4.5) and QUERY (3.7): wall time set, periods closed, and what a report holds. -/
namespace Sys2Proof.Laws
open Sys2Proof Sys2Proof.Machine

variable {s : State} {id : Nat} {d : Desc}

/-! ### SET_TIME -/

/-- Outside a span a SET_TIME that is not before the last close, or that overrides it, is applied and answered (R125, R172). -/
theorem exec_setTime_applies (h : Safety.Waits s id 0x48 d) (hspan : s.span.state = .none)
    (hclose : s.lastClose ≤ bits d.param.toNat 62 0 ∨ bit d.param.toNat 63 = true) :
    exec (.setTime id) s = .next ((s.applyTime (bits d.param.toNat 62 0)).finish id s.ledger.wall) := by
  have hserve : exec (.setTime id) s = .next (s.serveSetTime d) := congrArg _ (serve_waits h _)
  have hallowed : ¬ (bits d.param.toNat 62 0 < s.lastClose ∧ bit d.param.toNat 63 = false) := by
    rcases hclose with hle | hoverride
    · exact fun hbefore => absurd hbefore.1 (by omega)
    · simp [hoverride]
  have hserved : s.serveSetTime d = s.setTimeAt (some id) d.param.toNat := by
    simp [State.serveSetTime, Span.apart, Span.rejoining, Span.counts, hspan, waits_id h]
  rw [hserve, hserved, State.setTimeAt]
  simp only [Bool.and_eq_true, decide_eq_true_eq, Bool.not_eq_true', hallowed, if_false]
  rfl

/-- Settles O35: the three cases of `applyTime`, and a slew whose debt is paid. -/
theorem timeIsSet : Obligations.TimeIsSet := by
  unfold Obligations.TimeIsSet
  intro s id d
  refine ⟨fun h hspan hclose => ?_, fun hslew hdebt => ?_⟩
  · intro x w l
    have hexec := exec_setTime_applies h hspan hclose
    refine ⟨fun hforward => ?_, fun hback hsmall => ?_, fun hback hlarge => ?_⟩
    · rw [hexec, State.applyTime, if_pos hforward]
    · rw [hexec, State.applyTime, if_neg hback.not_ge, if_pos hsmall]
    · rw [hexec, State.applyTime, if_neg hback.not_ge, if_neg hlarge.not_ge]
      rfl
  · show execSlewEnd s = _
    simp [execSlewEnd, hslew, hdebt]

/-! ### Days, periods and journalled clocks -/

/-- Settles O36: each command on the condition that it checks. -/
theorem clockRegistersAndPeriods : Obligations.ClockRegistersAndPeriods := by
  unfold Obligations.ClockRegistersAndPeriods
  intro s t
  refine ⟨fun day hpresent hempty hday => ?_, fun hpresent hdue => ?_, fun hdue => ?_, rfl⟩
  · have hday' : day.toNat ≠ 0 := fun h => hday (BitVec.eq_of_toNat_eq h)
    show execLckTdaySet t day s = _
    simp [execLckTdaySet, State.setDay, hpresent, hempty, hday']
  · show execMeteringPeriodClose t s = _
    simp only [execMeteringPeriodClose, hpresent, hdue, ne_eq, not_false_eq_true, decide_true, Bool.and_self, if_true]
    rfl
  · exact if_pos hdue

/-! ### QUERY -/

theorem exec_query_waits (h : Safety.Waits s id 0x50 d) : exec (.query id) s = .next (s.serveQuery d) :=
  congrArg _ (serve_waits h _)

/-- Settles O37: one report for each code of Table 3.8. -/
theorem queryReports : Obligations.QueryReports := by
  unfold Obligations.QueryReports
  intro s id d h t hpresent
  refine ⟨fun hcode => ?_, fun p hcode hperiod => ?_, fun hcode => ?_, fun hcode hspan => ?_⟩
  · rw [exec_query_waits h, State.serveQuery, if_neg hpresent, hcode, waits_id h]
    rfl
  · rw [exec_query_waits h, State.serveQuery, if_neg hpresent, hcode, waits_id h]
    dsimp only
    rw [show (s.tenant _).periodAt _ = some p from hperiod]
    rfl
  · rw [exec_query_waits h, State.serveQuery, if_neg hpresent, hcode, waits_id h]
    rfl
  · rw [exec_query_waits h, State.serveQuery, if_neg hpresent, hcode, waits_id h]
    simp [State.levelReport, hspan, Image.level]

end Sys2Proof.Laws
end

section
/-! PROOFS. Pattern search (9.5 to 9.7): scans, pattern slots and parity. -/
namespace Sys2Proof.Laws
open Sys2Proof Sys2Proof.Machine

variable {s : State} {id : Nat} {d : Desc}

/-- Two counts change the counters alone. -/
theorem bump_bump_only (s : State) (a b : Nat) : ∃ c, (s.bump a).bump b = { s with counters := c } := by
  obtain ⟨c, h⟩ := bumpBy_only s a 1
  obtain ⟨c', h'⟩ := bumpBy_only { s with counters := c } b 1
  exact ⟨c', by rw [State.bump, State.bump, h, h']⟩

/-- A request for a scan, SCAN or SCAN_COUNT, is served. -/
theorem exec_scan_waits (count : Bool) (h : Safety.Waits s id (if count then 0x31 else 0x30) d) :
    exec (if count then .scanCount id else .scan id) s = .next (s.serveScan d count) := by
  cases count <;> exact congrArg _ (serve_waits h _)

/-- A ranged scan with no image of its own begins once its gate, its slot and its bounds have passed (R122, R350, R358). -/
theorem serveScan_begins (count : Bool) (hbuild : s.rebuilding = false) (hgate : s.looked.scanGate d = none)
    (himage : d.value = []) (hmode : d.bitsOf 1 0 ≠ 2)
    (hbank : ((s.looked.slot (s.looked.driveSlot d.fn (d.bitsOf 11 8))).bank
      (s.looked.slot (s.looked.driveSlot d.fn (d.bitsOf 11 8))).current).isSome = true)
    (hbound : s.looked.scanBound d.fn (s.looked.driveSlot d.fn (d.bitsOf 11 8)) false = none) :
    s.serveScan d count = s.looked.beginScan d (s.looked.driveSlot d.fn (d.bitsOf 11 8)) count := by
  have hpresent : ((s.looked.slot (s.looked.driveSlot d.fn (d.bitsOf 11 8))).bank
      (s.looked.slot (s.looked.driveSlot d.fn (d.bitsOf 11 8))).current).isNone = false := by simpa using hbank
  simp [State.serveScan, hbuild, hgate, hmode, State.startScan, himage, hpresent, hbound]

/-- The oldest waiting image is loaded when nothing binds the bank that is not current, its last segment came in an earlier
tick, and no load has run in this one (R350, R351). -/
theorem exec_patternLoad_loads {slot who : Nat} {img : Bytes} {rest : List (Nat × Bytes)}
    (hload : (s.slot slot).load = (who, img) :: rest) (hbound : s.bankBound slot (!(s.slot slot).current) = false)
    (hlast : ∀ x : Desc, s.desc who = some x → x.arrival < s.tick) (hstolen : s.awl.stolen.1 = s.tick → s.awl.stolen.2 = []) :
    ∃ u : State, exec (.patternLoad slot) s = .next (u.scanRun who) ∧ u.tenants = s.tenants ∧ u.descs = s.descs ∧
      u.awl.slots = s.awl.slots.modify slot (fun p =>
        { p.setBank (!p.current) (some img) with current := !p.current, load := rest }) ∧
      u.awl.scans = s.awl.scans.map (fun c =>
        if c.desc = who then { c with bank := some (!(s.slot slot).current) } else c) := by
  have hearlier : (s.desc who).elim false (fun d => decide (s.tick ≤ d.arrival)) = false := by
    cases hdesc : s.desc who with
    | none => rfl
    | some x => simpa using hlast x hdesc
  have hfirst : (s.awl.stolen.1 == s.tick && !s.awl.stolen.2.isEmpty) = false := by
    by_cases htick : s.awl.stolen.1 = s.tick
    · simp [hstolen htick]
    · simp [htick]
  obtain ⟨x, hx⟩ : ∃ x, x = (s.modSlot slot (fun p =>
    { p.setBank (!p.current) (some img) with current := !p.current, load := rest })).modScan who
      (fun c => { c with bank := some (!(s.slot slot).current) }) := ⟨_, rfl⟩
  obtain ⟨c, hcount⟩ := bump_bump_only x 0x00050128 0x00050130
  refine ⟨{ x with
    counters := c
    awl := { x.awl with stolen := (s.tick, (List.range 4).map (State.takenLane { x with counters := c })) } }, ?_, ?_⟩
  · show execPatternLoad slot s = _
    simp only [execPatternLoad, hload, hbound, hearlier, hfirst, Bool.or_self, Bool.false_eq_true, if_false]
    rw [← hx, hcount, hx]
    rfl
  · rw [hx]
    exact ⟨rfl, rfl, rfl, rfl⟩

/-- Settles O38: each command on the slot, the scan or the entry that it names. -/
theorem scansAndPatterns : Obligations.ScansAndPatterns := by
  unfold Obligations.ScansAndPatterns
  intro s id d
  refine ⟨fun count h hbuild hgate himage hmode => ?_, fun c hscan hmode hdue => ?_,
    fun slot who img rest hload hbound hlast hstolen => ?_, fun slot => rfl, fun entry => ⟨rfl, rfl⟩, fun slot bank => rfl⟩
  · intro n hbank hbound
    rw [exec_scan_waits count h, serveScan_begins count hbuild hgate himage hmode hbank hbound, State.beginScan]
    simp [himage, hmode, waits_id h, n]
  · show execScanTimeLimit id s = _
    simp [execScanTimeLimit, hscan, hmode, hdue]
  · exact exec_patternLoad_loads hload hbound hlast hstolen

end Sys2Proof.Laws
end

section
/-! PROOFS. Long operations (3.8) and the tenant functions of chapter 7: creation, removal, stop, start and reset. -/
namespace Sys2Proof.Laws
open Sys2Proof Sys2Proof.Machine

variable {s : State} {id : Nat} {d : Desc}

/-! ### Long operations -/

/-- A long operation on a tenant that runs or is stopped passes its gate (R129, R134). -/
theorem longGate_ready (h : (s.tenant (longTarget d)).state = .running ∨ (s.tenant (longTarget d)).state = .stopped)
    (go : Nat → State → State) : s.longGate d go = go (longTarget d) s := by
  rcases h with h | h <;> simp [State.longGate, h]

/-- Settles O39: three operations past one gate, and their three ends. -/
theorem longOperations : Obligations.LongOperations := by
  unfold Obligations.LongOperations
  intro s id d
  refine ⟨?_, fun t l issuer hlong hissuer => ⟨fun hkind => ?_, fun hkind => ?_, fun hkind => ?_⟩⟩
  · intro t hready
    refine ⟨fun h hsingle => ?_, fun h hpending => ?_, fun h => ?_⟩
    · have hserve : exec (.formatTenant id) s = .next (s.serveFormat d) := congrArg _ (serve_waits h _)
      rw [hserve, State.serveFormat, longGate_ready hready, waits_id h]
      simp only [show s.replicated (longTarget d) = false from hsingle, Bool.false_eq_true, if_false, List.length_map]
      rfl
    · have hserve : exec (.rekey id) s = .next (s.serveRekey d) := congrArg _ (serve_waits h _)
      have hpresent : (s.secure.genIn (longTarget d) .pending).isNone = false := by
        rw [← Option.not_isSome]
        simpa using hpending
      rw [hserve, State.serveRekey, longGate_ready hready, waits_id h]
      simp only [hpresent, Bool.false_eq_true, if_false]
      rfl
    · have hserve : exec (.compact id) s = .next (s.serveCompact d) := congrArg _ (serve_waits h _)
      rw [hserve, State.serveCompact, longGate_ready hready, waits_id h]
  · show execLongOperationComplete t s = _
    simp [execLongOperationComplete, hlong, hkind, State.answerLong, hissuer, State.finish]
  · show execLongOperationComplete t s = _
    simp [execLongOperationComplete, hlong, hkind, State.answerLong, hissuer, State.finish]
  · show execLongOperationComplete t s = _
    simp [execLongOperationComplete, hlong, hkind, State.answerLong, hissuer, State.finish]

/-! ### Start -/

/-- A change of a tenant that keeps its state leaves every tenant's state. -/
theorem modTenant_state (s : State) (u : Nat) {f : Tenant → Tenant} (hf : ∀ x, (f x).state = x.state) (t : Nat) :
    ((s.modTenant u f).tenant t).state = (s.tenant t).state := by
  by_cases h : t = u
  · subst h
    by_cases ht : t < s.tenants.length
    · rw [tenant_modTenant_same ht, hf]
    · simp [State.tenant, State.modTenant, ht]
  · rw [tenant_modTenant_ne s h]

/-- The engine's busy ticks leave every tenant's state. -/
theorem tickBusy_state (s : State) (t : Nat) : (s.tickBusy.tenant t).state = (s.tenant t).state := by
  unfold State.tickBusy
  generalize s.cinch.busyTenants = l
  induction l generalizing s with
  | nil => rfl
  | cons a l ih =>
    refine (ih _).trans (modTenant_state s a ?_ t)
    exact fun _ => rfl

/-- After the engine's busy ticks a tick leaves the tenants alone. -/
theorem tickPasses_tenants (hdark : s.dark = false) : s.tickPasses.tenants = (State.tickBusy { s with
    tick := s.tick + 1
    tenants := s.tenants.mapIdx s.tickTenant
    ledger := s.ledger.tickWall
    media := s.media.tickAge s.power.td
    power := s.power.tickCore
    secure := s.secure.tickFuses (s.tick + 1)
    span := s.span.drain }).tenants := by
  unfold State.tickPasses
  simp only [hdark, Bool.false_eq_true, if_false]
  generalize State.tickBusy _ = b
  obtain ⟨n, x, hadapt⟩ := adaptLanes_only b
  obtain ⟨n1, c1, ha⟩ := tickFec_only b.adaptLanes .a
  obtain ⟨n2, c2, hb⟩ := tickFec_only (b.adaptLanes.tickFec .a) .b
  rw [hb, ha, hadapt]
  split
  · exact bump_tenants _ _
  · rfl

/-- Over the start of a tick a tenant of a powered drive takes the state that the tick gives it. -/
theorem tickPasses_state (hdark : s.dark = false) {t : Nat} (ht : t < s.tenants.length) :
    (s.tickPasses.tenant t).state = (s.tickTenant t (s.tenant t)).state := by
  rw [State.tenant, tickPasses_tenants hdark]
  refine (tickBusy_state _ t).trans ?_
  simp [State.tenant, ht]

/-! ### Tenants made, changed and ended -/

/-- Settles O40: each command on the tenant's state that it needs; a start is seen in the tick that follows. -/
theorem tenantsAreCreatedAndRemoved : Obligations.TenantsAreCreatedAndRemoved := by
  unfold Obligations.TenantsAreCreatedAndRemoved
  intro s id d
  refine ⟨?_, fun t issuer p hcreating => ?_, ?_, ?_, fun t issuer hstate hissuer => ?_, fun t hstate => ?_,
    fun t hstate => ?_, fun t hstate => ⟨?_, fun ht hlen hqueue hdark u v hu hv => ?_⟩⟩
  · intro t p h habsent hfree howned hreserved hfits
    have hserve : exec (.tenantCreate id) s = .next (s.serveCreate d) := congrArg _ (serve_waits h _)
    have hgate : ¬ (((s.tenant (d.bitsOf 5 0)).state ≠ .absent || s.creating.any (fun c => c.1 == d.bitsOf 5 0) || !s.lcOwned) =
        true) := by simp [t, habsent, hfree, State.lcOwned, howned]
    rw [hserve, State.serveCreate, if_neg hgate, hreserved, waits_id h]
    simp only [Bool.false_eq_true, if_false]
    rw [show s.profileFault (d.bitsOf 5 0) (profileOf d.value) _ _ = none from hfits]
  · show execTenantCreateComplete t s = _
    rw [execTenantCreateComplete, hcreating]
    rfl
  · intro t mask p h hstate hreserved hfits hunused hkeys
    have hserve : exec (.tenantResize id) s = .next (s.serveResize d) := congrArg _ (serve_waits h _)
    have hgate : (s.tenant (d.bitsOf 5 0)).state ≠ .absent ∧ (s.tenant (d.bitsOf 5 0)).state ≠ .busy ∧
        ¬ ((s.tenant (d.bitsOf 5 0)).state = .removing ∨ (s.tenant (d.bitsOf 5 0)).state = .wedged) := by
      rcases hstate with hstate | hstate | hstate | hstate <;> simp [show (s.tenant (d.bitsOf 5 0)).state = _ from hstate]
    obtain ⟨habsent, hbusy, hgone⟩ := hgate
    have hfits' : s.profileFault (d.bitsOf 5 0) ((s.tenant (d.bitsOf 5 0)).profile.take (profileOf d.value) (d.bitsOf 38 32))
        (byteAt d.value 14) (d.bitsOf 38 32) = none := hfits
    have hroom : ¬ ((s.shareInUse t p.share || p.keyslots < (s.secure.keysOf t).length) = true) := by
      simp [hunused, hkeys]
    rw [hserve, State.serveResize]
    simp only [if_neg habsent, if_neg hbusy, Bool.or_eq_true, decide_eq_true_eq, if_neg hgone, hreserved, Bool.false_eq_true,
      if_false, hfits', waits_id h]
    exact congrArg Host.Outcome.next (if_neg (by simpa using hroom))
  · intro t h hstate howned hsingle
    have hserve : exec (.tenantRemove id) s = .next (s.serveRemove d) := congrArg _ (serve_waits h _)
    have hstate' : (s.tenant (d.bitsOf 5 0)).state = .stopped := hstate
    have hsingle' : s.replicated (d.bitsOf 5 0) = false := hsingle
    rw [hserve, State.serveRemove]
    simp [hstate', hsingle', State.lcOwned, howned, waits_id h, t]
  · show execTenantRemoveComplete t s = _
    simp only [execTenantRemoveComplete, hstate, ne_eq, not_true_eq_false, if_false, hissuer]
    rfl
  · show Host.Outcome.next (s.stopTenant t) = _
    rcases hstate with hstate | hstate <;> rw [State.stopTenant, hstate] <;> rfl
  · show Host.Outcome.next (s.stopTenant t) = _
    rcases hstate with hstate | hstate <;> rw [State.stopTenant, hstate]
  · show Host.Outcome.next (s.startTenant t) = _
    rw [State.startTenant, if_pos hstate]
  · have hstart : u = s.modTenant t (fun x => { x with startDue := true }) := by
      have hexec : exec (.tenantStart t) s = .next (s.startTenant t) := rfl
      rw [hexec, State.startTenant, if_pos hstate] at hu
      exact (Host.Outcome.next.inj hu).symm
    have hticked : v = u.tickPasses := by
      rw [step_nil (by rw [hstart]; exact hqueue)] at hv
      exact (Host.Outcome.next.inj hv).symm
    have hpresent : t < s.tenants.length := hlen ▸ ht
    have htenant : u.tenant t = { s.tenant t with startDue := true } := by
      rw [hstart]
      exact tenant_modTenant_same hpresent _
    have hlength : t < u.tenants.length := by
      rw [hstart]
      simpa using hpresent
    rw [hticked, tickPasses_state (by rw [hstart]; exact hdark) hlength, htenant]
    simp [State.tickTenant, hstate]

/-! ### Resets -/

/-- Settles O41: each command on the tenant's state and on the ticks since its reset. -/
theorem tenantsReset : Obligations.TenantsReset := by
  unfold Obligations.TenantsReset
  intro s id d
  refine ⟨?_, fun t hstate hdue hheld => ?_, fun t hstate hempty => ?_, fun t hstate hdue => ?_, fun t hstate hdue hheld => ?_,
    fun h => ?_⟩
  · intro t h hstate a
    have hserve : exec (.functionReset id) s = .next (s.serveReset d) := congrArg _ (serve_waits h _)
    have hreset : s.serveReset d = (s.accept d.id .waiting).beginReset t [d.id] false := by
      rcases hstate with hstate | hstate <;> simp [State.serveReset, show (s.tenant (d.bitsOf 5 0)).state = _ from hstate, t]
    rw [hserve, hreset, waits_id h]
    rfl
  · show execDrainLimit t s = _
    simp only [execDrainLimit, hstate, hdue, hheld, decide_true, Bool.and_self, Bool.not_false, if_true]
    rfl
  · show Host.Outcome.next (s.resetComplete t) = _
    rw [State.resetComplete]
    rcases hstate with hstate | hstate <;> simp only [hstate, hempty] <;> rfl
  · show Host.Outcome.next (s.resetComplete t) = _
    simp [State.resetComplete, hstate, hdue]
    rfl
  · show execWedgeLimit t s = _
    simp only [execWedgeLimit, hstate, hdue, hheld, decide_true, Bool.and_self, Bool.not_false, if_true]
    rfl
  · have hserve : exec (.fullReset id) s = .next (s.serveFullReset d) := congrArg _ (serve_waits h _)
    rw [hserve, State.serveFullReset, waits_id h]

end Sys2Proof.Laws
end

section
/-! PROOFS. Rule loads (9.3), keys and the life cycle (chapter 10). -/
namespace Sys2Proof.Laws
open Sys2Proof Sys2Proof.Machine

variable {s : State} {id : Nat} {d : Desc}

/-! ### Rule loads -/

/-- A list none of whose members fails a test has no first failure. -/
theorem find_bne_none {α β : Type} [BEq β] [LawfulBEq β] {l : List α} {f : α → β} {b : β} (h : ∀ u ∈ l, f u = b) :
    l.find? (fun u => f u != b) = none := by
  rw [List.find?_eq_none]
  intro u hu
  simp [h u hu]

/-- Settles O42: a load passes the checks of R341 in their order, and its validation is `applyRules` written out. -/
theorem rulesAreLoaded : Obligations.RulesAreLoaded := by
  unfold Obligations.RulesAreLoaded
  intro s
  refine ⟨fun id d h => ?_, fun l hload => ?_⟩
  · intro t clearVoid img es after all hstate himage hperm hempty hstopped hinside hleft hfree a
    have hbusy : (s.tenant (d.bitsOf 5 0)).state ≠ .busy := by
      rw [show (s.tenant (d.bitsOf 5 0)).state = .stopped from hstate]
      decide
    have hcoll : ((loadParts d).1.isSome && !(s.tenant (d.bitsOf 5 0)).recs.isEmpty) = false := by
      rcases hempty with hnone | hrecs
      · simp [hnone]
      · simp [show (s.tenant (d.bitsOf 5 0)).recs = [] from hrecs]
    have hready : all.find? (fun u => (s.tenant u).state != .stopped) = none := find_bne_none hstopped
    have hcommits : all.find? (fun u => s.secure.nsbLeft u == 0) = none := by
      rw [List.find?_eq_none]
      intro u hu
      simpa using hleft u hu
    rw [exec_ruleLoad_waits h, State.serveRuleLoad]
    simp only [if_neg hbusy, show s.imageFault (d.bitsOf 5 0) (loadParts d).2 = none from himage, hperm, Bool.not_true,
      Bool.false_eq_true, if_false, hcoll]
    rw [show List.find? (fun u => (s.tenant u).state != .stopped) _ = none from hready]
    simp only
    rw [show s.outsideFault _ _ _ = none from hinside]
    simp only
    rw [show List.find? (fun u => s.secure.nsbLeft u == 0) _ = none from hcommits]
    simp only [hfree, waits_id h]
    rfl
  · intro all after b f
    refine ⟨fun tab htab => ?_, fun hnone => ?_⟩
    · intro g
      show execRuleLoadValidate s = _
      rw [execRuleLoadValidate, hload]
      simp only [State.validateRules, State.applyRules, htab]
      rfl
    · show execRuleLoadValidate s = _
      rw [execRuleLoadValidate, hload]
      simp only [State.validateRules, State.applyRules, hnone]
      rfl

/-! ### Keys -/

/-- Settles O44: KEY_LOAD's checks in their order, and each other command on the key that it names. -/
theorem keysAreLoadedAndKept : Obligations.KeysAreLoadedAndKept := by
  unfold Obligations.KeysAreLoadedAndKept
  intro s
  refine ⟨fun id d key h => ?_, fun id k rest hloads => ?_, fun record => rfl, fun t value k hbits hbusy hpresent hretired => ?_,
    fun slot mask => rfl, fun slot k hkey => ⟨?_, ?_⟩, fun hdue => ?_, rfl⟩
  · intro t kind k howned htarget hbusy hblob hslots hspent x
    have hserve : exec (.keyLoad id) s = .next (s.serveKeyLoad d) := congrArg _ (serve_waits h _)
    have hidle : (decide (d.bitsOf 5 0 < 32) && (s.tenant (d.bitsOf 5 0)).state == .busy) = false := by
      by_cases ht : d.bitsOf 5 0 < 32
      · simpa [ht] using hbusy ht
      · simp [ht]
    have hallowed : s.loadAllowed (kindOf (d.bitsOf 11 8)) (d.bitsOf 5 0) = true := by rw [State.loadAllowed, howned]
    have hleft : (decide (kindOf (d.bitsOf 11 8) = .okek) && decide (64 ≤ s.secure.okekSpent)) = false := by
      by_cases hkind : kindOf (d.bitsOf 11 8) = .okek
      · simpa [hkind] using hspent hkind
      · simp [hkind]
    rw [hserve, State.serveKeyLoad]
    simp only [show s.keyTargetBad (d.bitsOf 11 8) (d.bitsOf 5 0) = false from htarget, Bool.false_eq_true, if_false, hidle,
      hallowed, Bool.not_true]
    rw [show s.unwrapBlob _ _ _ _ = .ok key from hblob]
    simp only [show s.slotsForbid (kindOf (d.bitsOf 11 8)) (d.bitsOf 5 0) = false from hslots, Bool.false_eq_true, if_false,
      ge_iff_le, hleft, waits_id h]
    rfl
  · show execKeyLoadComplete s = _
    rw [execKeyLoadComplete, hloads]
  · show Host.Outcome.next (s.eraseGeneration t value.toNat) = _
    simp only [State.eraseGeneration, hbits, hretired]
    simp [hbusy, hpresent]
  · show execTackParityError slot true s = _
    rw [execTackParityError, hkey]
    rfl
  · show execTackParityError slot false s = _
    rw [execTackParityError, hkey]
    rfl
  · exact if_neg hdue.not_gt

/-! ### The life cycle -/

/-- Settles O45: LC_TRANSITION's checks in their order, and the rest of `endTransition` at its DONE row. -/
theorem lifeCycleMoves : Obligations.LifeCycleMoves := by
  unfold Obligations.LifeCycleMoves
  intro s
  refine ⟨fun id d to_ k h hto hidle hissuer hlength hready hpair hcheck => ?_, fun i hintent => ?_⟩
  · have hserve : exec (.lcTransition id) s = .next (s.serveTransition d) := congrArg _ (serve_waits h _)
    rw [hserve, State.serveTransition]
    simp only [hto, hidle, hissuer, hlength, hready, hpair, hcheck, Bool.not_true, Bool.or_self, Bool.false_eq_true, if_false,
      ne_eq, not_true_eq_false, State.beginTransition, waits_id h]
  · intro e x t
    refine ⟨fun id hdesc => ?_, fun hdesc => ?_⟩
    · show execLcTransitionDone s = _
      rw [execLcTransitionDone, hintent, hdesc]
      rfl
    · show execLcTransitionDone s = _
      rw [execLcTransitionDone, hintent, hdesc]
      rfl

end Sys2Proof.Laws
end

section
/-! PROOFS. Field update (chapter 11): receiving, committing, activating, ending and confirming. -/
namespace Sys2Proof.Laws
open Sys2Proof Sys2Proof.Machine

variable {s : State} {id : Nat} {d : Desc}

/-! ### Receiving -/

/-- A session that an abort or the passing of time ends is closed with its cause (R401). -/
theorem exec_ends (hend : s.update.endable = true) :
    (∀ value : Word, bit value.toNat 0 = true → bits value.toNat 31 16 = 0x4142 →
      exec (.updAbort value) s = .next { s with update := s.update.close 4 }) ∧
    (s.update.lastOp + 37500000 ≤ s.tick →
      exec .updAbandoned s = .next ({ s with update := s.update.close 5 }.raise 0x8602 0 0 0)) := by
  refine ⟨fun value hbit hkey => ?_, fun hdue => ?_⟩
  · show Host.Outcome.next (s.abortUpdate value.toNat) = _
    simp [State.abortUpdate, hbit, hkey, hend]
  · have hboth : (s.update.endable && decide (s.update.lastOp + 37500000 ≤ s.tick)) = true := by
      rw [hend, decide_eq_true hdue]
      rfl
    exact if_pos hboth

/-- The end of the oldest block under way in a session that receives (R406). -/
theorem endBlock_receiving (hsession : s.update.inSession .receiving = true) (i : Nat) (data : Bytes) :
    s.endBlock id i data true = ({ s with update := { s.update with
      stage := { s.update.stage with blocks := insertSorted i data s.update.stage.blocks }
      received := i :: s.update.received.erase i } } : State).finish id 0 ∧
    s.endBlock id i data false = (({ s with update := { s.update with
      received := s.update.received.erase i } } : State).bump 0x000A0108).refuse id .blockCrc 0 := by
  simp [State.endBlock, hsession]

/-- The end of an UPD_COMMIT in a session that receives, by what its checks found (R407). -/
theorem endCommit_receiving (hsession : s.update.inSession .receiving = true) :
    (s.commitFault = none → s.endCommit id = ({ s with update := { s.update with
      session := .committed, levelWarn := s.levelOutside } } : State).finish id 0) ∧
    (∀ reason, s.commitFault = some (reason, none) → s.endCommit id = ({ s with update := { s.update with
      commitErr := (reason, 0) } } : State).refuse id .signature reason) ∧
    (∀ reason (p : Part), s.commitFault = some (reason, some p) → s.endCommit id = ({ s with update := { s.update with
      commitErr := (reason, p.kind)
      received := s.update.received.filter (fun i => !(p.first ≤ i && i < p.first + p.count)) } } : State).refuse id
        .signature (reason + p.kind * 256)) := by
  refine ⟨fun h => ?_, fun reason h => ?_, fun reason p h => ?_⟩ <;> simp [State.endCommit, hsession, h]

/-- Settles O46: each opcode past its checks, each completion by its outcome, and the two ends of a session. -/
theorem updatesAreReceived : Obligations.UpdatesAreReceived := by
  unfold Obligations.UpdatesAreReceived
  intro s id d
  refine ⟨fun h hgate hlength hfew hmany => ?_, fun h hgate hindex hlength hcrc => ?_,
    fun i data rest a b hblocks hsession => ?_, fun h hgate hall => ?_, fun rest hcommits hsession => ?_, fun h hgate => ?_,
    fun hend => exec_ends hend⟩
  · have hserve : exec (.updBegin id) s = .next (s.serveBegin d) := congrArg _ (serve_waits h _)
    rw [hserve, State.serveBegin, hgate]
    simp [hlength, hfew.not_gt, hmany.not_gt, waits_id h]
  · have hserve : exec (.updBlock id) s = .next (s.serveBlock d) := congrArg _ (serve_waits h _)
    rw [hserve, State.serveBlock, hgate]
    simp only [hindex.not_ge, hlength, hcrc, ne_eq, not_true_eq_false, if_false, waits_id h]
  · intro u
    have hend := endBlock_receiving (s := { s with update := u }) (id := id) hsession i data
    have hexec : exec (.updBlockComplete a b) s = .next (({ s with update := u } : State).endBlock id i data (a || b)) := by
      show execUpdBlockComplete a b s = _
      rw [execUpdBlockComplete, hblocks]
    refine ⟨fun hgood => ?_, fun hbad => ?_⟩
    · rw [hexec, hgood, hend.1]
    · rw [hexec, hbad, hend.2]
  · have hserve : exec (.updCommit id) s = .next (s.serveCommit d) := congrArg _ (serve_waits h _)
    have hreceived : (List.range (manifestBlocks s.update.stage.manifest)).all s.update.received.contains = true := by
      simpa using hall
    rw [hserve, State.serveCommit, hgate]
    simp only [hreceived, Bool.not_true, Bool.false_eq_true, if_false, waits_id h]
  · intro u
    obtain ⟨hgood, hfault, hpart⟩ := endCommit_receiving (s := u) (id := id) hsession
    have hexec : exec .updCommitComplete s = .next (u.endCommit id) := by
      show execUpdCommitComplete s = _
      rw [execUpdCommitComplete, hcommits]
    exact ⟨fun h => by rw [hexec, hgood h], fun reason h => by rw [hexec, hfault reason h],
      fun reason p h => by rw [hexec, hpart reason p h]⟩
  · have hserve : exec (.updActivate id) s = .next (s.serveActivate d) := congrArg _ (serve_waits h _)
    rw [hserve, State.serveActivate, hgate, waits_id h]

/-! ### Confirming -/

/-- An UNCONFIRMED image past its self-tests may be confirmed before its deadline (R416). -/
theorem confirmable_early {t0 : Nat} (hsession : s.update.session = .unconfirmed) (htest : s.update.selfTestOk = true)
    (hat : s.update.testedAt = some t0) (hearly : s.tick < t0 + 7500000) : s.confirmable = true := by
  have hdeadline : s.update.deadline = some (t0 + 7500000) := by
    simp [Update.deadline, hsession, hat]
  rw [State.confirmable, hsession, htest, hdeadline, Option.elim_some, decide_eq_true hearly, Bool.and_true, Bool.and_true,
    beq_self_eq_true]

/-- Settles O47: the three commands on what they check. -/
theorem updatesAreConfirmed : Obligations.UpdatesAreConfirmed := by
  unfold Obligations.UpdatesAreConfirmed
  intro s
  refine ⟨fun htest => ?_, fun id d t0 h hsession htest hat hearly => ?_, fun why hdue => if_pos hdue⟩
  · show execSelfTestsPassed s = _
    simp [execSelfTestsPassed, htest]
  · have hserve : exec (.healthConfirm id) s = .next (s.serveConfirm d) := congrArg _ (serve_waits h _)
    have hready := confirmable_early hsession htest hat hearly
    rw [hserve, State.serveConfirm, hready, waits_id h]
    rfl

end Sys2Proof.Laws
end

section
/-! PROOFS. The cinch (7.5): credit, grants, preemption and starvation. -/
namespace Sys2Proof.Laws
open Sys2Proof Sys2Proof.Machine

variable {s : State}

/-! ### Credit -/

theorem clampCredit_eq (k : Int) : clampCredit k = max (-1048576) (min 262144 k) := rfl

/-- A requester with work that does not hold the channel gains 16 times its weight (R281). -/
theorem creditTick_waiting {c : Channel} {r : Nat} {q : Requester} (hq : c.reqs[r]? = some q) (hwork : q.flows ≠ [])
    (howner : c.owner ≠ some r) :
    ((s.creditTick c).reqs[r]?).map (·.k) = some (max (-1048576) (min 262144 (q.k + 16 * (s.weightOf r : Int)))) := by
  simp [State.creditTick, hq, hwork, howner, clampCredit_eq]

/-- The holder pays 512 bytes of credit for each beat that it moved (R281). -/
theorem creditTick_holder {c : Channel} {r : Nat} {q : Requester} {f : Flow} {rest : List Flow} (hq : c.reqs[r]? = some q)
    (hflows : q.flows = f :: rest) (howner : c.owner = some r) :
    ((s.creditTick c).reqs[r]?).map (·.k) =
      some (max (-1048576) (min 262144 (q.k - 512 * ((min (c.pace - c.beats) f.left : Nat) : Int)))) := by
  simp [State.creditTick, hq, hflows, howner, Requester.move, clampCredit_eq]

/-! ### Grants -/

/-- Moving the urgent transfer to the front changes the order of a requester's transfers alone. -/
theorem urgentFirst_only (q : Requester) : ∃ l, q.urgentFirst = { q with flows := l } := by
  unfold Requester.urgentFirst
  split
  · exact ⟨q.flows, rfl⟩
  · split
    · exact ⟨q.flows, rfl⟩
    · exact ⟨_, rfl⟩

/-- A grant lowers the B of every other requester by one (R283). -/
theorem grant_other {c : Channel} {r i : Nat} {q : Requester} (step : Nat) (hq : c.reqs[i]? = some q) (hi : i ≠ r) :
    (c.grant r step).reqs[i]? = some { q with b := q.b - 1 } := by
  simp [Channel.grant, hq, hi]

/-- A grant ends its requester's wait, and clears its B at step 3 (R283). -/
theorem grant_own {c : Channel} {r : Nat} {q : Requester} (step : Nat) (hq : c.reqs[r]? = some q) :
    ∃ q', (c.grant r step).reqs[r]? = some q' ∧ q'.wait = 0 ∧ q'.starve = 0 ∧ q'.k = q.k ∧ q'.l = q.l ∧
      q'.b = if step = 3 then 0 else q.b := by
  obtain ⟨l, hl⟩ := urgentFirst_only q
  by_cases hstep : step = 1
  · refine ⟨{ q with flows := l, wait := 0, starve := 0, b := if step = 3 then 0 else q.b }, ?_, rfl, rfl, rfl, rfl, rfl⟩
    simp [Channel.grant, hq, hstep, hl]
  · refine ⟨{ q with wait := 0, starve := 0, b := if step = 3 then 0 else q.b }, ?_, rfl, rfl, rfl, rfl, rfl⟩
    simp [Channel.grant, hq, hstep]

/-! ### Preemption -/

/-- A holder that yields before its transfer has moved whole keeps it. -/
theorem yield_keeps {c : Channel} {h j : Nat} {f : Flow} {rest : List Flow} (hflows : (c.req h).flows = f :: rest)
    (hj : j < f.left) :
    c.yield_ h j = { c.modReq h (fun q => q.move j) with owner := none, beats := c.beats + j } := by
  simp [Channel.yield_, hflows, hj.not_ge]

/-- A holder whose transfer has moved whole is done with it (R286). -/
theorem yield_ends {c : Channel} {h j : Nat} {f : Flow} {rest : List Flow} (hflows : (c.req h).flows = f :: rest)
    (hj : f.left ≤ j) :
    c.yield_ h j = { c.modReq h (fun q => { q.move j with l := 0, flows := (q.move j).flows.drop 1 }) with
      owner := none, beats := c.beats + j } := by
  simp [Channel.yield_, hflows, hj]

/-- An urgent transfer takes the channel from a holder that is not urgent (R284). -/
theorem preempt_urgent {ch h r : Nat} {f : Flow} {rest : List Flow} (howner : (s.chan ch).owner = some h)
    (hflows : ((s.chan ch).req h).flows = f :: rest) (hcalm : f.urgent = none)
    (hurgent : oldestUrgent (s.chan ch) (s.eligible (s.chan ch)) = some r) :
    s.preempt ch = (s.modChan ch (fun _ =>
      (s.chan ch).yield_ h (min 1 ((s.chan ch).pace - (s.chan ch).beats)))).grantOn ch r 1 := by
  simp [State.preempt, howner, hflows, hcalm, hurgent]

/-- The highest credit takes the channel where its lead passes the margin before the transfer ends (R285). -/
theorem preempt_credit {ch h r j : Nat} {f : Flow} {rest : List Flow} (howner : (s.chan ch).owner = some h)
    (hflows : ((s.chan ch).req h).flows = f :: rest) (hcalm : f.urgent = none)
    (hurgent : oldestUrgent (s.chan ch) (s.eligible (s.chan ch)) = none)
    (hcredit : highestCredit (s.chan ch) ((s.eligible (s.chan ch)).filter (fun r => ((s.chan ch).req r).b == 0)) = some r)
    (hon : s.cinch.preemptEn = true)
    (hloss : beatsToLoss ((s.chan ch).req r).k ((s.chan ch).req h).k s.cinch.margin = some j)
    (hpace : j ≤ (s.chan ch).pace - (s.chan ch).beats) (hleft : j < f.left) :
    s.preempt ch = ((s.modChan ch (fun _ => ((s.chan ch).yield_ h j).modReq h (fun q =>
      { q with l := min (((s.chan ch).req h).l + 1) 6, b := 2 ^ min (((s.chan ch).req h).l + 1) 6 }))).grantOn ch r 2).bump
        0x00040208 := by
  simp [State.preempt, howner, hflows, hcalm, hurgent, hcredit, hon, hloss, hpace, hleft]

/-- Settles O48: credit and grants by the laws above, preemption by what the holder's yield leaves. -/
theorem cinchArbitrates : Obligations.CinchArbitrates := by
  unfold Obligations.CinchArbitrates
  intro s
  refine ⟨⟨rfl, fun c r q hq hwork howner => creditTick_waiting hq hwork howner,
    fun c r q f rest hq hflows howner => creditTick_holder hq hflows howner⟩,
    fun ch r step howner hcandidate => ⟨?_, rfl, fun i q hq hi => grant_other step hq hi, fun q hq => grant_own step hq⟩,
    fun ch h f rest howner hflows hcalm => ?_, fun ch r => rfl, fun ch h f rest howner hflows => rfl, fun ch r => ?_⟩
  · show Host.Outcome.next (s.arbitrate ch) = _
    simp [State.arbitrate, howner, hcandidate]
  · intro c
    refine ⟨fun r hurgent => ?_, fun r j hurgent hcredit hon hloss => ?_⟩
    · have hexec : exec (.cinchPreempt ch) s = .next _ :=
        congrArg Host.Outcome.next (preempt_urgent howner hflows hcalm hurgent)
      exact ⟨fun hj => by rw [hexec, yield_keeps hflows hj], fun hj => by rw [hexec, yield_ends hflows hj]⟩
    · intro l hpace hleft
      have hexec : exec (.cinchPreempt ch) s = .next _ :=
        congrArg Host.Outcome.next (preempt_credit howner hflows hcalm hurgent hcredit hon hloss hpace hleft)
      rw [hexec, yield_keeps hflows hleft]
  · intro q hcalm hmask hdue t
    show execCinchStarved ch r s = _
    have hcond : (((s.chan ch).req r).flows.any (·.urgent.isNone) && !s.masked r &&
        decide (s.cinch.starveTicks ≤ ((s.chan ch).req r).starve)) = true := by
      rw [show ((s.chan ch).req r).flows.any (·.urgent.isNone) = true from hcalm, hmask, decide_eq_true hdue]
      rfl
    exact if_pos hcond

end Sys2Proof.Laws
end

section
/-! PROOFS. Media (8.1 to 8.5, 8.8 and 8.10): the burnisher, refresh, ageing, dies and the lifetime record. -/
namespace Sys2Proof.Laws
open Sys2Proof Sys2Proof.Machine

variable {s : State}

/-! ### The burnisher -/

/-- With the rails on the burnisher reads its piece, a word, a codeword or a tile entry (R317). -/
theorem exec_burnisherWalk_flash (hlit : s.dark = false) (b : BlockId) (o : ReadOutcome) (n : Nat) (u d : List Nat)
    (v : List (Nat × Bytes × Nat)) :
    exec (.burnisherWalk (.flash b o n u d v)) s = .next (s.walkBlock b o n u d v) := by
  show execBurnisherWalk (.flash b o n u d v) s = _
  simp [execBurnisherWalk, hlit]

theorem exec_burnisherWalk_tile (hlit : s.dark = false) (e : Nat) (good : Bool) :
    exec (.burnisherWalk (.tile e good)) s = .next ((s.walkTile good).walked 4) := by
  show execBurnisherWalk (.tile e good) s = _
  simp [execBurnisherWalk, hlit]

/-- A word that is not poison is kept, corrected and counted, or its structure takes the consequence (R304). -/
theorem walkWord_readable {m : Mem} {addr : Nat} {x : Struct} (hmem : inMem m x = true)
    (hclean : readWord s.media.words (Mem.word m addr) ≠ Cell.poisoned) :
    s.walkWord m addr .good x = s ∧
    s.walkWord m addr .ce x = (s.putWord (Mem.word m addr)
      (Cell.fresh (readWord s.media.words (Mem.word m addr)).data)).bumpMed (ceCounter m) ∧
    s.walkWord m addr .ue x = (s.bumpMed (ceCounter m + 8)).uncorrectable x := by
  simp [State.walkWord, hmem, hclean]

/-- A poison word is counted and acted on, whatever the read found (R306). -/
theorem walkWord_poisoned {m : Mem} {addr : Nat} {x : Struct} (hmem : inMem m x = true)
    (hpoison : readWord s.media.words (Mem.word m addr) = Cell.poisoned) (f : Found) :
    s.walkWord m addr f x = (s.bumpMed 0x140).uncorrectable x := by
  simp [State.walkWord, hmem, hpoison]

/-- In the first pass the oldest block not yet visited is read, in every later one any block (R320). -/
theorem walkBlock_reads {b : BlockId} (hpass : s.media.firstPass = false ∨ s.media.oldestFirst b = true) (o : ReadOutcome)
    (n : Nat) (u d : List Nat) (v : List (Nat × Bytes × Nat)) :
    s.walkBlock b o n u d v =
      ((({ s.queueWork (b.die / s.diesPerChannel) 33 codewordBytes none with media :=
        { (s.queueWork (b.die / s.diesPerChannel) 33 codewordBytes none).media with
          visited := (b :: (s.queueWork (b.die / s.diesPerChannel) 33 codewordBytes none).media.visited).eraseDups } } :
            State).walkFlash b o n u d v).walked 0) := by
  have hfree : (s.media.firstPass && !s.media.oldestFirst b) = false := by
    rcases hpass with h | h <;> simp [h]
  rw [State.walkBlock, hfree]
  rfl

/-! ### The obligation -/

/-- Settles O50: each command past its guard. -/
theorem mediaIsKept : Obligations.MediaIsKept := by
  unfold Obligations.MediaIsKept
  intro s
  refine ⟨fun m addr f x hlit => ?_, fun m addr x hmem => ?_,
    fun b o n u d v hlit hpass => ?_,
    fun e hlit => ⟨exec_burnisherWalk_tile hlit e true, exec_burnisherWalk_tile hlit e false⟩,
    fun blk to_ counter => ?_, fun hdue => if_neg (by omega), fun ch die hdie hpresent => ?_, rfl, fun hlit hdue => ?_⟩
  · show execBurnisherWalk (.word m addr f x) s = _
    cases m <;> simp [execBurnisherWalk, hlit]
  · intro k
    exact ⟨fun hclean => walkWord_readable hmem hclean, fun f hpoison => walkWord_poisoned hmem hpoison f⟩
  · intro q
    rw [exec_burnisherWalk_flash hlit]
    exact congrArg Host.Outcome.next (walkBlock_reads hpass o n u d v)
  · intro b hcause hlit hlimit htakes x t
    have hgo : (s.dark || decide (s.power.programLimit = 0) ||
        !s.media.takes (s.media.block blk) (s.media.block to_)) = false := by
      rw [hlit, decide_eq_false hlimit, show s.media.takes (s.media.block blk) (s.media.block to_) = true from htakes]
      rfl
    show execBlockRefresh blk to_ s = _
    rw [execBlockRefresh]
    simp only [show refreshCause s.media.age (s.media.block blk) = some counter from hcause, hgo]
    rfl
  · have hgo : (decide (s.diesPerChannel ≤ die) || s.media.retiredDies.contains (ch.val, die)) = false := by
      rw [decide_eq_false (by omega), hpresent]
      rfl
    show execDieRetire ch die s = _
    rw [execDieRetire, hgo]
    rfl
  · show execLifetimeRecordCopy s = _
    rw [execLifetimeRecordCopy, hlit, Bool.false_or, decide_eq_false hdue.not_gt]
    rfl

end Sys2Proof.Laws
end

section
/-! PROOFS. The adaptive loops (8.9, 12.3), power, the pins and the holdup bank (12.1, 12.2, 8.2). -/
namespace Sys2Proof.Laws
open Sys2Proof Sys2Proof.Machine

variable {s : State}

/-! ### The loops -/

/-- The SAFE point ends 125,000 ticks after it was taken (R324). -/
theorem exec_vfSafeEnd_due {t : Nat} (hsafe : s.power.vfSafe = some t) (hdue : t + 125000 ≤ s.tick) :
    exec .vfSafeEnd s = .next { s with power := { s.power with vfSafe := none } } := by
  show execVfSafeEnd s = _
  rw [execVfSafeEnd, hsafe]
  exact if_pos hdue

/-- A lane whose time at a limit or below its margin is up is counted and raised (R325). -/
theorem exec_serdesMargin_due {lane : Fin 4} (hdue : 125000 ≤ (s.power.lanes.getD lane Lane.reset).limitFor ∨
      125000 ≤ (s.power.lanes.getD lane Lane.reset).lowFor) :
    exec (.serdesMargin lane) s = .next (({ s with power := { s.power with
      lanes := s.power.lanes.modify lane (fun l => { l with limitFor := 0, lowFor := 0 }) } }.bump 0x000B0218).raise
        0x8003 lane 0 0) := by
  have hover : ¬ ((s.power.lanes.getD lane Lane.reset).limitFor < 125000 &&
      decide ((s.power.lanes.getD lane Lane.reset).lowFor < 125000)) = true := by
    rw [Bool.and_eq_true, decide_eq_true_eq, decide_eq_true_eq]
    omega
  exact if_neg hover

/-- The thermal clock cap as a choice between propositions (R327). -/
theorem thermalCap_iff (p : Power) (td tj : Int) : thermalCap p td tj =
    if p.thrStart + 10 ≤ td ∨ 105 ≤ tj then true
    else if td < p.thrStart + 8 ∧ tj < 100 then false else p.clockCap := by
  simp [thermalCap]

/-- The thermal loop with all three sensors good (R327). -/
theorem exec_thermalLoopUpdate_good {td tj tb : Int} (hdue : s.power.reducedAt + 1250 ≤ s.tick) :
    exec (.thermalLoopUpdate ⟨some td, some tj, some tb⟩) s = .next
      { s with power := { s.power.thermalLoop (16128 - s.floorSum) ⟨some td, some tj, some tb⟩ with reducedAt := s.tick } } := by
  show execThermalLoopUpdate _ s = _
  rw [execThermalLoopUpdate, if_neg (by omega)]
  rfl

/-- Settles O51: each loop past its condition. -/
theorem loopsAdapt : Obligations.LoopsAdapt := by
  unfold Obligations.LoopsAdapt
  intro s
  refine ⟨fun m hlow hsafe hstep => ?_, fun m hhigh hheld hsafe hcap => ?_, fun m p hbad => ?_,
    fun t hsafe hdue => exec_vfSafeEnd_due hsafe hdue, fun cw hover => if_pos hover, fun cw hunder => if_pos hunder,
    fun lane => ?_, fun td tj tb hdue => ?_, fun td hhot hcool => ?_, fun td hcool hhot => ?_⟩
  · show execVfStepDown m s = _
    simp [execVfStepDown, hlow, hsafe, hstep]
  · show execVfStepUp m s = _
    have hcond : (decide (60 ≤ m) && decide (1250 ≤ s.power.vfGood) && s.power.vfSafe.isNone &&
        decide (s.power.vfStep < s.power.stepCap)) = true := by
      rw [decide_eq_true hhigh, decide_eq_true hheld, hsafe, decide_eq_true hcap]
      rfl
    exact if_pos hcond
  · have hcond : ¬ (p && decide (0 ≤ m)) = true := by
      rcases hbad with hbad | hbad
      · simp [hbad]
      · simp [hbad.not_ge]
    exact if_neg hcond
  · intro l hdue
    exact exec_serdesMargin_due hdue
  · rw [exec_thermalLoopUpdate_good hdue, Power.thermalLoop, thermalCap_iff]
    rfl
  · show execThermalHigh td s = _
    simp [execThermalHigh, hhot, hcool]
  · show execThermalOk td s = _
    simp [execThermalOk, hhot, hcool]

end Sys2Proof.Laws
end

section
/-! PROOFS. Power, the pins and the holdup bank (12.1, 12.2, 8.2): what a power failure cuts leaves the tick count as it is. -/
namespace Sys2Proof.Laws
open Sys2Proof Sys2Proof.Machine

/-! ### The tick count under what a power failure cuts -/

/-- A fold of changes that each keep the tick count keeps it. -/
theorem foldl_tick {α : Type} {f : State → α → State} (h : ∀ s a, (f s a).tick = s.tick) (l : List α) (s : State) :
    (l.foldl f s).tick = s.tick := by
  induction l generalizing s with
  | nil => rfl
  | cons a l ih => exact (ih _).trans (h s a)

section
variable (s : State)

@[simp] theorem queueSweep_tick (home t : Nat) (recs : List Rec) : (s.queueSweep home t recs).tick = s.tick := by
  refine foldl_tick (fun s a => ?_) _ s
  rfl

@[simp] theorem removeKeys_tick (t : Nat) (keys : List Bytes) : (s.removeKeys t keys).tick = s.tick := rfl

@[simp] theorem raiseSeq_tick (set n : Nat) : (s.raiseSeq set n).tick = s.tick := by
  unfold State.raiseSeq
  split <;> rfl

@[simp] theorem raiseAbove_tick (t : Nat) : (s.raiseAbove t).tick = s.tick :=
  foldl_tick (fun s _ => raiseSeq_tick s _ _) _ s

@[simp] theorem removeOutside_tick (t : Nat) (us : List Nat) (after : List Rule) :
    (s.removeOutside t us after).tick = s.tick := by
  unfold State.removeOutside
  dsimp only
  split
  · rfl
  · refine (foldl_tick (fun s a => ?_) _ _).trans ?_
    · exact queueSweep_tick _ _ _ _
    · rfl

@[simp] theorem applyRules_tick (l : RuleLoading) : (s.applyRules l).tick = s.tick := by
  unfold State.applyRules
  dsimp only
  refine (foldl_tick (fun s t => raiseAbove_tick s t) _ _).trans ?_
  have hfreed : ((l.target :: l.affected).foldl (fun s u => s.modTenant u Tenant.freeLeases)
      (({ s with secure := s.secure.burnNsb (l.target :: l.affected) } : State).removeOutside l.target (l.target :: l.affected)
        (s.awl.visibleIn (!s.awl.view)))).tick = s.tick := by
    refine (foldl_tick (fun s u => ?_) _ _).trans (removeOutside_tick _ _ _ _)
    rfl
  cases l.coll <;> exact hfreed

@[simp] theorem cutLoad_tick : s.cutLoad.tick = s.tick := by
  unfold State.cutLoad
  split
  · rfl
  · split
    · rfl
    · rfl
    · exact applyRules_tick s _

@[simp] theorem finishDue_tick (t : Nat) : (s.finishDue t).tick = s.tick :=
  foldl_tick (fun s i => by obtain ⟨a, b, ds, h⟩ := finish_only s i 0; rw [h]) _ s

@[simp] theorem removeTenant_tick (t : Nat) : (s.removeTenant t).tick = s.tick := by
  unfold State.removeTenant State.toScrub State.shareTo State.restartSpaces State.clearKeyPage
  dsimp only
  refine (queueSweep_tick _ _ _ _).trans ?_
  exact finishDue_tick s t

@[simp] theorem returnEffects_tick : s.returnEffects.tick = s.tick := by
  unfold State.returnEffects
  generalize List.range 32 = l
  exact foldl_tick removeTenant_tick l _

@[simp] theorem lcEffects_tick (frm to_ : LcState) (value : Bytes) : (s.lcEffects frm to_ value).tick = s.tick := by
  unfold State.lcEffects
  split
  · unfold State.claimEffects
    split
    · rfl
    · exact bump_tick _ _
  · exact returnEffects_tick s
  · exact returnEffects_tick s
  · rfl
  · rfl
  · rfl

@[simp] theorem cutTransition_tick : s.cutTransition.tick = s.tick := by
  unfold State.cutTransition
  split
  · rfl
  · dsimp only
    split
    · rfl
    · split
      · rfl
      · split
        · exact lcEffects_tick _ _ _ _
        · rfl

@[simp] theorem cutLoader_tick : s.cutLoader.tick = s.tick := by
  unfold State.cutLoader
  split <;> rfl

end

/-- What a reset ends leaves the tick count. -/
theorem endVolatile_tick (s : State) (loops cold standby : Bool) : (s.endVolatile loops cold standby).tick = s.tick := by
  show s.cutLoad.cutTransition.cutLoader.tick = s.tick
  simp

/-! ### Where nothing is cut -/

/-- With no rule load and no transition under way a reset cuts neither. -/
theorem cut_idle {s : State} (hload : s.awl.loading = none) (hintent : s.secure.intent = none) :
    s.cutLoad.cutTransition = s := by
  have hcut : s.cutLoad = s := by rw [State.cutLoad, hload]
  rw [hcut, State.cutTransition, hintent]

/-- What the loader is cut short in is the update alone. -/
theorem cutLoader_only (s : State) : ∃ x, s.cutLoader = { s with update := x } := by
  unfold State.cutLoader
  split
  · exact ⟨_, rfl⟩
  · exact ⟨s.update, rfl⟩

/-- Turning the rails off keeps the journal and the lifetime record where nothing is cut (R301, R330). -/
theorem railsOff_keeps {s : State} (hload : s.awl.loading = none) (hintent : s.secure.intent = none) (rails : Rails)
    (standby : Bool) :
    (s.railsOff rails standby).ledger.journal = s.ledger.journal ∧ (s.railsOff rails standby).media.life = s.media.life ∧
      (s.railsOff rails standby).media.lifeCopy = s.media.lifeCopy := by
  obtain ⟨x, hx⟩ := cutLoader_only s
  have hcut : s.cutLoad.cutTransition.cutLoader = { s with update := x } := by rw [cut_idle hload hintent, hx]
  unfold State.railsOff State.endVolatile
  rw [hcut]
  exact ⟨rfl, rfl, rfl⟩

/-! ### The obligation -/

/-- A power failure on a powered drive turns the rails off, with programs in progress counted (R302, R429). -/
theorem exec_powerFail_on {s : State} (hgood : s.power.supplyGood = true) (hon : s.power.rails = .on) (n : Nat) :
    ∃ u : State, u = { s with media := { s.media with
        life := if 0 < n ∧ 0 < s.power.programLimit then s.media.life.modify 17 (· + 1) else s.media.life } } ∧
      exec (.powerFail n) s = .next { u.railsOff .off false with
        power := { (u.railsOff .off false).power with supplyGood := false } } := by
  refine ⟨_, rfl, ?_⟩
  show execPowerFail n s = _
  by_cases hn : 0 < n ∧ 0 < s.power.programLimit
  · simp [execPowerFail, hgood, hon, hn]
  · simp only [execPowerFail, hgood, hon, if_neg hn]
    have hnone : ¬ 0 < min n s.power.programLimit := by omega
    simp [hon, hnone]

/-- Settles O52: the power failure by what the rails' end keeps, every other command past its guard. -/
theorem powerAndPins : Obligations.PowerAndPins := by
  unfold Obligations.PowerAndPins
  intro s
  refine ⟨fun n hgood hon => ?_, fun hdown hlow => ?_, fun hon => ?_, fun hdis hoff hgood => ?_, fun td tj hhot hon => ?_,
    fun hhold hlow => ?_, rfl, rfl, fun hclosed => ?_, rfl, fun hpast => if_pos hpast, fun mj hcharging => ?_,
    fun mj hcharged hdue => ?_, fun mj hcharging hpower => ?_⟩
  · intro life
    obtain ⟨u, hu, hexec⟩ := exec_powerFail_on hgood hon n
    refine ⟨_, hexec, rfl, rfl, ?_, fun hload hintent => ?_, rfl, rfl, rfl⟩
    · have htick : u.tick = s.tick := by rw [hu]
      exact (endVolatile_tick u true true false).trans htick
    · have hkeeps := railsOff_keeps (s := u) (by rw [hu]; exact hload) (by rw [hu]; exact hintent) .off false
      rw [hu] at hkeeps ⊢
      exact hkeeps
  · show execPowerGood s = _
    simp [execPowerGood, hdown, hlow]
  · show execPwrDisAssert s = _
    simp [execPwrDisAssert, hon]
  · show execPwrDisRelease s = _
    simp [execPwrDisRelease, hdis, hoff, hgood]
  · intro c
    show execThermalTrip td tj s = _
    have hcond : ((decide (95 ≤ td) || decide (120 ≤ tj)) && s.power.rails == .on) = true := by
      rcases hhot with h | h <;> simp [h, hon]
    exact if_pos hcond
  · show execThermalHoldEnd s = _
    simp [execThermalHoldEnd, hhold, hlow]
  · show execLeverOpen s = _
    simp [execLeverOpen, hclosed]
  · show execHoldupMeasure mj s = _
    simp [execHoldupMeasure, hcharging]
  · intro r u v
    show execHoldupMeasure mj s = _
    have hexec : execHoldupMeasure mj s = .next (s.measureBank mj) := by
      rw [execHoldupMeasure, hcharged, if_neg (by simp), if_neg hdue.not_gt]
    rw [hexec, State.measureBank]
    simp only [Bool.and_eq_true, decide_eq_true_eq, Bool.not_eq_true']
    rfl
  · show execHoldupChargeComplete mj s = _
    simp [execHoldupChargeComplete, hcharging, hpower]

end Sys2Proof.Laws
end

section
/-! PROOFS. SMBus (12.7): its transactions with a good PEC, and the one that a wrong PEC discards. -/
namespace Sys2Proof.Laws
open Sys2Proof Sys2Proof.Machine

variable {s : State}

/-- With 12 V present and a good PEC a transaction acts (R449). -/
theorem smb_good (h : s.power.supplyGood = true) (act : State → State) : s.smb true act = act s := by
  simp [State.smb, h]

/-- A wrong PEC discards a transaction whole, sets PEC_ERR and counts (R451). -/
theorem smb_bad (h : s.power.supplyGood = true) (act : State → State) :
    s.smb false act = ({ s with smbus := { s.smbus with pecErr := true } } : State).bump 0x00000118 := by
  simp [State.smb, h]

/-- Settles O56: one lemma for a good PEC and one for a wrong one, then each command's own cases. -/
theorem smbusTransactions : Obligations.SmbusTransactions := by
  unfold Obligations.SmbusTransactions
  intro s h
  refine ⟨fun data hlength => ?_, fun hreach hfew hmany => ?_, fun data hlength => ?_, ?_, ?_, ?_⟩
  · intro p k x
    have hexec : exec (.smbSetPointer data true) s = .next (s.smbPoint data) := congrArg Host.Outcome.next (smb_good h _)
    refine ⟨fun hgood => ?_, fun hbad => ?_⟩
    · rw [hexec, State.smbPoint, if_neg (not_not.mpr hlength)]
      obtain ⟨hreach, haligned, hfew, hmany⟩ := hgood
      have hall : (pathReaches .smbus p && p % 4 = 0 && 1 ≤ k && k ≤ 8) = true := by simp [hreach, haligned, hfew, hmany]
      exact congrArg Host.Outcome.next (if_pos hall)
    · rw [hexec, State.smbPoint, if_neg (not_not.mpr hlength)]
      refine congrArg Host.Outcome.next (if_neg fun hall => hbad ?_)
      simpa only [Bool.and_eq_true, decide_eq_true_eq, and_assoc] using hall
  · intro r
    have hexec : exec (.smbBlockRead true) s = .next s.smbBlock :=
      congrArg Host.Outcome.next ((smb_good h _).trans (if_pos hreach))
    rw [hexec, State.smbBlock]
    simp [hfew, hmany, r]
  · intro u
    have hexec : exec (.smbWriteWord data true) s = .next (s.smbWrite data) := congrArg Host.Outcome.next (smb_good h _)
    refine ⟨fun hp => ?_, fun hp => ?_, fun hreset halert hreach => ?_⟩
    · have hreach : pathReaches .smbus 0x38 = true := by decide
      rw [hexec, State.smbWrite, if_neg (not_not.mpr hlength), hp]
      simp [hreach, u, hp]
    · have hreach : pathReaches .smbus 0x54 = true := by decide
      rw [hexec, State.smbWrite, if_neg (not_not.mpr hlength), hp]
      simp [hreach, u, hp]
    · rw [hexec, State.smbWrite, if_neg (not_not.mpr hlength)]
      simp [hreach, hreset, halert, u]
  · have hexec : exec (.smbReadFlags true) s = .next s.smbFlags := congrArg Host.Outcome.next (smb_good h _)
    rw [hexec, State.smbFlags]
    simp [flagAt]
  · exact ⟨fun data => ⟨congrArg Host.Outcome.next (smb_bad h _), congrArg Host.Outcome.next (smb_bad h _)⟩,
      congrArg Host.Outcome.next (smb_bad h _), congrArg Host.Outcome.next (smb_bad h _)⟩
  · show execSmbAlertResponse s = _
    simp [execSmbAlertResponse, h, State.alertLow]

end Sys2Proof.Laws
end

section
/-! PROOFS. The span (5.5, 5.6): joining and leaving it, its configuration, and the ring's lanes. -/
namespace Sys2Proof.Laws
open Sys2Proof Sys2Proof.Machine

variable {s : State}

/-! ### Membership -/

/-- SPAN_JOIN that every check passes is accepted and starts JOINING (R216). -/
theorem serveJoin_admitted {d : Desc} (hstate : s.span.state = .none) (hlc : s.secure.lc = .owned ∨ s.secure.lc = .locked)
    (hlength : d.value.length = 96) (hvalid : cfgValid d.value = true)
    (hring : (cfgRing d.value).contains (d.bitsOf 3 0) = true) (hlevel : byteAt d.value 80 = s.level.1)
    (hidentity : s.span.identity = some (cfgIdentity d.value) ∨ s.secure.rebindSpent < 32) (hreconfig : s.span.reconfig = false) :
    s.serveJoin d = { s.accept d.id .waiting with span := { s.span with
      state := .joining, me := d.bitsOf 3 0, cfg := some d.value
      join := some { desc := some d.id, began := (s.accept d.id .waiting).tick, probed := false, reqSent := false } } } := by
  have howned : (s.secure.lc == .owned || s.secure.lc == .locked) = true := by simpa using hlc
  have hrebind : ¬ (s.span.identity ≠ some (cfgIdentity d.value) ∧ 32 ≤ s.secure.rebindSpent) := fun ⟨hother, hspent⟩ =>
    hidentity.elim hother fun hleft => absurd hspent (Nat.not_le.mpr hleft)
  have hmember : d.bitsOf 3 0 ∈ cfgRing d.value := List.contains_iff_mem.mp hring
  simp [State.serveJoin, hstate, howned, hlength, hvalid, hmember, hlevel, hreconfig, hrebind]

/-- SPAN_JOIN that has seen no valid rein for 62,500 ticks leaves the span state (R216). -/
theorem spanJoinTimeout_due {id t : Nat} (hstate : s.span.state = .joining)
    (hjoin : s.span.join = some { desc := some id, began := t, probed := false, reqSent := false }) (hdue : t + 62500 ≤ s.tick) :
    execSpanJoinTimeout s = .next (({ s with span := s.span.departed } : State).refuse id .spanReconfig 1) := by
  unfold execSpanJoinTimeout
  rw [hjoin]
  refine if_pos ?_
  rw [decide_eq_true hstate, decide_eq_true hdue]
  rfl

/-- SPN_CFG_GO at a member orders a record of its identity and next epoch, and marks any other as bad (R221, R231). -/
theorem cfgGo_member (hstate : s.span.state = .member) (hreconfig : s.span.reconfig = false) :
    s.cfgGo = if cfgIdentity s.span.staged = cfgIdentity s.span.record ∧
        cfgEpoch s.span.staged = cfgEpoch s.span.record + 1 ∧ cfgValid s.span.staged = true
      then ({ s with span := { s.span with reconfig := true } } : State).orderSystem (systemEntry 6 none 0 0 0 s.span.staged)
      else { s with span := { s.span with cfgBad := true } } := by
  simp [State.cfgGo, hstate, hreconfig, and_assoc]

/-- Settles O57: the checks that each command of a span makes, in the branch that passes them. -/
theorem spanMembership : Obligations.SpanMembership := by
  unfold Obligations.SpanMembership
  intro s id d
  refine ⟨fun h hstate hlc hlength hvalid hring hlevel hidentity hreconfig => ?_,
    fun t hstate hjoin hdue => spanJoinTimeout_due hstate hjoin hdue, fun h hstate => ?_, fun h hstate => ?_, fun h => ?_,
    fun hstate hreconfig => ⟨fun hgood => ?_, fun hbad => ?_⟩⟩
  · have hserve : exec (.spanJoin id) s = .next (s.serveJoin d) := congrArg _ (serve_waits h _)
    rw [hserve, serveJoin_admitted hstate hlc hlength hvalid hring hlevel hidentity hreconfig, waits_id h]
  · have hserve : exec (.spanLeave id) s = .next (s.serveLeave d) := congrArg _ (serve_waits h _)
    rw [hserve, State.serveLeave, hstate, waits_id h]
  · have hserve : exec (.spanLeave id) s = .next (s.serveLeave d) := congrArg _ (serve_waits h _)
    rw [hserve, State.serveLeave, hstate, waits_id h]
  · have hserve : exec (.spanStatus id) s = .next (s.answer d.id .done 0 [] [] (s.spanRecord d.fn)) :=
      congrArg _ (serve_waits h _)
    rw [hserve, waits_id h]
  · exact congrArg Host.Outcome.next ((cfgGo_member hstate hreconfig).trans (if_pos hgood))
  · exact congrArg Host.Outcome.next ((cfgGo_member hstate hreconfig).trans (if_neg hbad))

/-! ### Lanes -/

/-- In no span a lane that is lost is only noted. -/
theorem laneLost_out (port : RingPort) (h : s.span.state = .none) : s.laneLost port = { s with span := match port with
    | .up => { s.span with laneUp := { lock := false, since := s.tick } }
    | .dn => { s.span with laneDn := { lock := false, since := s.tick } } } := by
  cases port <;> simp [State.laneLost, h]

/-- A lane that has held lock for 125,000 ticks is steady (R220). -/
theorem steady_of_since {l : RingLane} {tick : Nat} (hlock : l.lock = true) (hsince : l.since + 125000 ≤ tick) :
    l.steady tick = true := by
  rw [RingLane.steady, hlock, decide_eq_true hsince]
  rfl

/-- A broken side is no hindrance to unwrapping where its lane is steady (R220). -/
theorem unbroken_or_steady {broken : Bool} {l : RingLane} {tick : Nat}
    (h : broken = true → l.lock = true ∧ l.since + 125000 ≤ tick) : (!broken || l.steady tick) = true := by
  cases broken with
  | false => rfl
  | true => exact (h rfl).elim steady_of_since

/-- RING_UNWRAP where every condition of R220 holds. -/
theorem unwrap_ready (hwrapped : s.span.wrapped = true)
    (hup : s.span.brokenUp = true → s.span.laneUp.lock = true ∧ s.span.laneUp.since + 125000 ≤ s.tick)
    (hdn : s.span.brokenDn = true → s.span.laneDn.lock = true ∧ s.span.laneDn.since + 125000 ≤ s.tick)
    (hquiet : ∀ b ∈ s.span.batches, b.origin = s.span.master → b.rotation + 2 < s.span.rotation)
    (hstart : s.span.inOrder = true → s.spanTick = (s.span.rotStart : Int)) :
    s.unwrap = ({ s with span := { s.span with wrapped := false, brokenUp := false, brokenDn := false } } : State).sendProbe := by
  have hall : s.span.batches.all (fun b => b.origin != s.span.master || b.rotation + 2 < s.span.rotation) = true := by
    rw [List.all_eq_true]
    intro b hb
    by_cases horigin : b.origin = s.span.master
    · simp [hquiet b hb horigin]
    · simp [horigin]
  have hstarts : (!s.span.inOrder || decide (s.spanTick = (s.span.rotStart : Int))) = true := by
    cases horder : s.span.inOrder with
    | false => rfl
    | true => simp [hstart horder]
  unfold State.unwrap
  refine if_pos ?_
  rw [hwrapped, unbroken_or_steady hup, unbroken_or_steady hdn, hall, hstarts]
  rfl

/-- Settles O60: each command's conditions, and for RING_LANE_LOSS and RING_LANE_LOCK each of the two sides. -/
theorem ringLanes : Obligations.RingLanes := by
  unfold Obligations.RingLanes
  intro s
  refine ⟨fun horder hwhole hdue => ?_, fun hspan hbroken => ?_, fun hspan hbroken => ?_, fun hnone => ⟨?_, ?_⟩,
    fun hlock => ?_, fun hlock => ?_,
    fun hwrapped hup hdn hquiet hstart => congrArg Host.Outcome.next (unwrap_ready hwrapped hup hdn hquiet hstart)⟩
  · show execProbePeriod s = _
    refine if_pos ?_
    rw [show (s.span.state == .member || s.span.state == .leaving) = true from horder, hwhole, decide_eq_true hdue]
    rfl
  · exact congrArg Host.Outcome.next (by simp [State.laneLost, hspan, hbroken])
  · exact congrArg Host.Outcome.next (by simp [State.laneLost, hspan, hbroken])
  · exact congrArg Host.Outcome.next (laneLost_out .up hnone)
  · exact congrArg Host.Outcome.next (laneLost_out .dn hnone)
  · exact congrArg Host.Outcome.next (if_neg (by simp [hlock]))
  · exact congrArg Host.Outcome.next (if_neg (by simp [hlock]))

end Sys2Proof.Laws
end

section
/-! PROOFS. Ring frames (5.2): one lemma for the frame that every member hears, and what each kind does there. -/
namespace Sys2Proof.Laws
open Sys2Proof Sys2Proof.Machine

variable {s : State} {port : RingPort} {frame : Bytes} {f g : RingFrame} {t : Nat}

/-! ### A heard frame -/

/-- A frame in the receive buffer changes the buffer alone. -/
theorem received_only (s : State) (port : RingPort) (frame : Bytes) :
    ∃ up dn, Safety.received s port frame = { s with free := s.free + 1, span := { s.span with rxUp := up, rxDn := dn } } := by
  cases port <;> exact ⟨_, _, rfl⟩

/-- Hearing a frame and sending it on leaves everything of the span that does not read the receive buffers, the silences and
what has been sent. -/
theorem passed_keeps {α : Type} (φ : Span → α) (s : State) (port : RingPort) (frame : Bytes) (f g : RingFrame)
    (hφ : ∀ (x : Span) (up dn : Nat) (silent : List (Nat × Nat)) (out : List (Bool × Bytes)) (sentP sentS : Nat),
      φ { x with rxUp := up, rxDn := dn, silent := silent, out := out, sentP := sentP, sentS := sentS } = φ x := by
        intros; rfl) :
    φ (Safety.passed s port frame f g).span = φ s.span := by
  obtain ⟨up, dn, hreceived⟩ := received_only s port frame
  simp only [Safety.passed, hreceived]
  split <;> exact hφ s.span _ _ _ _ _ _

/-- What the receive buffer leaves of the span, the sender no longer silent. -/
theorem received_keeps {α : Type} (φ : Span → α) (s : State) (port : RingPort) (frame : Bytes) (m : Nat)
    (hφ : ∀ (x : Span) (up dn : Nat) (silent : List (Nat × Nat)),
      φ { x with rxUp := up, rxDn := dn, silent := silent } = φ x := by intros; rfl) :
    φ ((Safety.received s port frame).span.hear m) = φ s.span := by
  obtain ⟨up, dn, hreceived⟩ := received_only s port frame
  rw [hreceived]
  exact hφ s.span _ _ _

/-- A frame that a member hears concerns it (R186). -/
theorem heard_concerns (h : Safety.Heard s port frame t f) : s.span.concerns (port == .up) f = true := by
  obtain ⟨-, -, -, htype, hsource, -, htarget⟩ := h
  have hother : (f.source != s.span.me) = true := bne_iff_ne.mpr hsource
  rcases htarget with hme | ⟨hall, hdirection⟩
  · simp [Span.concerns, hother, hme]
  · simp [Span.concerns, hother, hall, hdirection, htype]

/-- A frame that this member answers is acted on and goes no further. -/
theorem ringIn_answered (h : Safety.Heard s port frame t f) (fwd : RingFrame → Option RingFrame) (hfwd : fwd f = none)
    (act : RingFrame → State → State) :
    s.ringIn port frame t fwd act = act f { Safety.received s port frame with
      span := (Safety.received s port frame).span.hear f.source } := by
  have hconcerns := (received_keeps (Span.concerns · (port == .up) f) s port frame f.source).trans (heard_concerns h)
  obtain ⟨hspan, hserving, hparse, htype, -, hfits, -⟩ := h
  simp only [State.ringIn, hspan, hserving, hparse, htype, hfwd, buffered_fits hfits, hconcerns, Bool.not_true, Bool.or_false,
    decide_eq_true_eq, if_false, ne_eq, not_true_eq_false, if_true]

/-- Every ring-frame command takes its frame in at its port. -/
theorem exec_ringCommand {c : Instr} (h : Safety.ringCommand c = some (port, frame, t)) :
    ∃ fwd act, exec c s = .next (s.ringIn port frame t fwd act) := by
  unfold Safety.ringCommand at h
  split at h <;> cases h <;> exact ⟨_, _, rfl⟩

/-! ### What each kind does -/

/-- BATCH at a member in the order adds its part to its batch (R203). -/
theorem batchFrame_inOrder (h : s.span.inOrder = true) :
    s.batchFrame f = { s with
      span := (s.span.openBatch (u64 f.body 0) (u64 f.body 8) f.source).modBatch (u64 f.body 0) f.source
        (fun x => if x.complete then x else x.addFrame (u16 f.body 16) f.body) } := by
  simp [State.batchFrame, h]

/-- TRAILER of a batch that is being received closes it (R203). -/
theorem trailerFrame_inOrder {x : Batch} (h : s.span.inOrder = true) (hfind : s.span.findBatch (u64 f.body 0) f.source = some x)
    (hcovered : x.covered = false) (hcomplete : x.complete = false) :
    s.trailerFrame f = ({ s with span := s.span.modBatch (u64 f.body 0) f.source (fun y =>
      if y.complete then y else { y with trailer := some f.body }.assemble) } : State).batchWhole (u64 f.body 0) f.source := by
  have hopen : s.span.openBatch (u64 f.body 0) x.rotation f.source = s.span := by simp [Span.openBatch, hfind]
  have hreceiving : (some x).filter (fun b => !b.covered) = some x := by simp [Option.filter, hcovered]
  simp [State.trailerFrame, h, hfind, hreceiving, hopen, hcomplete]

/-- ACK at a member in the order is noted for its batch (R204). -/
theorem ackFrame_inOrder (h : s.span.inOrder = true) :
    let x := s.span.modBatch (u64 f.body 0) (byteAt f.body 8) (fun y => { y with
      acks := (byteAt f.body 9, BitVec.ofNat 16 (u16 f.body 10)) :: y.acks.filter (fun a => a.1 != byteAt f.body 9) })
    s.ackFrame f = ({ s with span := { x with sets := x.sets.map (fun z : SetState =>
      if bit (u16 f.body 10) z.id then { z with away := z.away.filter (fun m => m != byteAt f.body 9) }
      else z) } } : State).watchSets := by
  simp [State.ackFrame, h]

/-- JOIN_REQ with the record in force makes the master order the JOIN (R216). -/
theorem joinFrame_master (h : s.span.inOrder = true) (hmaster : s.span.me = s.span.master)
    (hepoch : u32 f.body 0 = cfgEpoch s.span.record) (hdigest : slice f.body 4 16 = cfgDigest s.span.record)
    (hring : (cfgRing s.span.record).contains (byteAt f.body 20) = true) (hjoins : s.span.joins.contains (byteAt f.body 20) = false)
    (hsystem : s.span.system = []) :
    s.joinFrame f = s.orderSystem (systemEntry 7 none 0 0 (byteAt f.body 20) []) := by
  simp only [State.joinFrame, h, hmaster, hepoch, hdigest, hring, hjoins, hsystem, List.any_nil, Bool.or_self, Bool.not_true,
    Bool.not_false, decide_true, Bool.and_self, if_true, Bool.false_eq_true, if_false]

/-- CONFIG_XFER of the same identity and a later epoch is adopted while joining (R217). -/
theorem configFrame_adopted (hstate : s.span.state = .joining ∨ s.span.state = .outside)
    (hidentity : cfgIdentity f.body = cfgIdentity s.span.record) (hepoch : cfgEpoch s.span.record < cfgEpoch f.body)
    (hvalid : cfgValid f.body = true) : s.configFrame f = { s with span := { s.span with cfg := some f.body } } := by
  have hjoining : (s.span.state == .joining || s.span.state == .outside) = true := by simpa using hstate
  simp [State.configFrame, hjoining, hidentity, hepoch, hvalid]

/-- PROBE_ECHO of a nearer member gives the delay from upstream (R188). -/
theorem tookEcho_nearer {now up : Nat} (hnear : byteAt f.body 8 ≠ s.span.lastHop) (hshort : s.span.loopDelay ≤ 4000) :
    s.tookEcho f now up = { s with span := { s.span with upDelay := up, loopLong := false } } := by
  simp [State.tookEcho, hnear, Nat.not_lt.mpr hshort]

/-- PROBE_ECHO of the farthest member gives the loop delay as well (R188). -/
theorem tookEcho_farthest {now up : Nat} (hfar : byteAt f.body 8 = s.span.lastHop) :
    s.tookEcho f now up =
      let delay := now - u64 f.body 0
      let u : State := { s with span := { s.span with upDelay := up, loopDelay := delay, loopLong := 4000 < delay } }
      if 4000 < delay then u.raise 0x8102 0 0 delay else u := by
  simp [State.tookEcho, hfar]

/-- Settles O58: a frame that is heard is passed on (or answered), and then acted on by the lemma of its kind; what that lemma
asks of the span is what hearing a frame leaves. -/
theorem ringFramesAreHeard : Obligations.RingFramesAreHeard := by
  unfold Obligations.RingFramesAreHeard
  intro s port frame
  refine ⟨fun c t hc => ?_, fun f => ?_⟩
  · obtain ⟨fwd, act, hexec⟩ := exec_ringCommand (s := s) hc
    obtain ⟨hout, hbad, hunknown⟩ := ringIn_dropped (s := s) (port := port) (frame := frame) (t := t) fwd act
    rw [hexec]
    exact ⟨fun h => congrArg _ (hout h), fun hspan hserving hparse => congrArg _ (hbad hspan hserving hparse),
      fun hspan hserving hparse => congrArg _ (hunknown hspan hserving hparse)⟩
  intro h b
  have hpass : ∀ {t : Nat} (act : RingFrame → State → State), Safety.Heard s port frame t f →
      s.ringIn port frame t some act = act f h := fun act hheard => ringIn_heard hheard some f rfl act
  have horder : h.span.inOrder = s.span.inOrder := passed_keeps Span.inOrder s port frame f f
  have hrecord : h.span.record = s.span.record := passed_keeps Span.record s port frame f f
  have hstate : h.span.state = s.span.state := passed_keeps Span.state s port frame f f
  refine ⟨fun hheard hin => ?_, fun x hheard hin hfind hcovered hcomplete => ?_, fun hheard hin => ?_, fun hheard => ?_,
    fun hheard hin hmaster hepoch hdigest hring hjoins hsystem => ?_, fun hheard hjoining hidentity hepoch hvalid => ?_,
    fun hheard => ?_, fun now up hheard hnear hshort => ?_, fun now up hheard hfar => ?_, fun x hheard hheld => ?_,
    fun hheard hin => ?_, fun hheard => ?_, fun r hheard hresync hset hsource => ?_, fun e hheard hmember => ?_⟩
  · exact congrArg Host.Outcome.next ((hpass _ hheard).trans (batchFrame_inOrder (horder.trans hin)))
  · exact congrArg Host.Outcome.next ((hpass _ hheard).trans (trailerFrame_inOrder (horder.trans hin) hfind hcovered hcomplete))
  · exact congrArg Host.Outcome.next ((hpass _ hheard).trans (ackFrame_inOrder (horder.trans hin)))
  · refine congrArg Host.Outcome.next ((hpass _ hheard).trans ?_)
    rw [show h.span.rotation = s.span.rotation from passed_keeps Span.rotation s port frame f f]
  · refine congrArg Host.Outcome.next ((hpass _ hheard).trans (joinFrame_master (horder.trans hin) ?_ ?_ ?_ ?_ ?_ ?_))
    · exact (passed_keeps (fun x => x.me = x.master) s port frame f f).mpr hmaster
    · rw [hrecord]; exact hepoch
    · rw [hrecord]; exact hdigest
    · rw [hrecord]; exact hring
    · exact (passed_keeps (fun x => x.joins.contains (byteAt b 20)) s port frame f f).trans hjoins
    · exact (passed_keeps Span.system s port frame f f).trans hsystem
  · refine congrArg Host.Outcome.next ((hpass _ hheard).trans (configFrame_adopted ?_ ?_ ?_ hvalid))
    · rw [hstate]; exact hjoining
    · rw [hrecord]; exact hidentity
    · rw [hrecord]; exact hepoch
  · exact congrArg Host.Outcome.next (ringIn_heard hheard (fun f => some (probeHop f)) _ rfl _)
  · refine congrArg Host.Outcome.next ((hpass _ hheard).trans (tookEcho_nearer ?_ ?_))
    · rw [show h.span.lastHop = s.span.lastHop from passed_keeps Span.lastHop s port frame f f]; exact hnear
    · rw [show h.span.loopDelay = s.span.loopDelay from passed_keeps Span.loopDelay s port frame f f]; exact hshort
  · refine congrArg Host.Outcome.next ((hpass _ hheard).trans (tookEcho_farthest ?_))
    rw [show h.span.lastHop = s.span.lastHop from passed_keeps Span.lastHop s port frame f f]; exact hfar
  · refine congrArg Host.Outcome.next ((ringIn_answered hheard _ ?_ _).trans ?_)
    · simp [show s.span.heldBatch (u64 f.body 0) = some x from hheld, heard_concerns hheard]
    · have hkept : ((Safety.received s port frame).span.hear f.source).heldBatch (u64 f.body 0) = some x :=
        (received_keeps (Span.heldBatch · (u64 f.body 0)) s port frame f.source).trans hheld
      simp only [hkept]
  · exact congrArg Host.Outcome.next ((hpass _ hheard).trans (if_pos (horder.trans hin)))
  · exact congrArg Host.Outcome.next (hpass _ hheard)
  · have hkept : h.span.resync = some r := (passed_keeps Span.resync s port frame f f).trans hresync
    have hexec : exec (.resyncData port frame) s = .next (if byteAt b 1 = 1 then h.installRecord r b
        else if byteAt b 1 = 2 then h.endResync r b else h) := by
      refine congrArg Host.Outcome.next ((hpass _ hheard).trans ?_)
      simp only [hkept]
      exact if_neg (by simp [show byteAt f.body 0 = r.set from hset, hsource])
    rw [hexec]
    exact ⟨fun hrecord => congrArg _ (if_pos hrecord), fun hend => congrArg _ (by simp [hend])⟩
  · have hexec : exec (.rein port frame e) s = .next (h.reinMember f e) := by
      refine congrArg Host.Outcome.next ((hpass _ hheard).trans (if_pos ?_))
      rw [hstate]
      simpa using hmember
    exact ⟨fun _ => hexec, fun hdisagrees => hexec.trans (congrArg Host.Outcome.next (if_pos hdisagrees))⟩

end Sys2Proof.Laws
end

section
/-! PROOFS. Slots and rotations (5.3 to 5.8): slots, the rein made anew, silence, commit and repair of batches, digests, rotations. -/
namespace Sys2Proof.Laws
open Sys2Proof Sys2Proof.Machine

variable {s : State}

/-- A present member in the order is a MEMBER or LEAVING (R218). -/
theorem inOrder_iff (x : Span) : x.inOrder = true ↔ x.state = .member ∨ x.state = .leaving := by
  simp [Span.inOrder]

/-- It is in no other state. -/
theorem inOrder_state {x : Span} (h : x.inOrder = true) : x.state ≠ .none ∧ x.state ≠ .joining ∧ x.state ≠ .outside := by
  rcases (inOrder_iff x).mp h with hstate | hstate <;> simp [hstate]

/-! ### Slots -/

/-- SLOT_START once in this member's slot opens it (R192, R206). -/
theorem slotStarts_once (hspan : s.span.state ≠ .none) (hjoining : s.span.state ≠ .joining)
    (hpresent : s.span.present.contains s.span.me = true) (hclosed : s.span.inSlot = false)
    (hnew : s.span.slotAt ≠ some s.slotNow) (hbegun : (s.slotNow : Int) ≤ s.spanTick)
    (hgoing : s.spanTick < (s.slotNow : Int) + s.span.slotLen) :
    s.slotStarts = ({ s with span := { s.span with
      inSlot := true
      slotAt := some s.slotNow
      slotWall := s.ledger.wall
      masterWall := if s.span.master = s.span.me then s.ledger.wall else s.span.masterWall
      masterTick := if s.span.master = s.span.me then s.slotNow else s.span.masterTick
      windowOpen := s.span.reinHere && !s.span.forfeiting && s.span.state != .outside
      join := none } } : State).answerSpan (s.span.join.bind (fun j => j.desc)) .done 0 := by
  have hnotYet : ¬ s.spanTick < (s.slotNow : Int) := Int.not_lt.mpr hbegun
  have hnotOver : ¬ (s.slotNow : Int) + s.span.slotLen ≤ s.spanTick := Int.not_le.mpr hgoing
  simp only [State.slotStarts, hpresent, hspan, hjoining, hclosed, hnew, hnotYet, hnotOver, Bool.not_true, decide_false,
    Bool.or_self, Bool.false_eq_true, if_false, beq_iff_eq]

/-- WINDOW_CLOSE of an open window with the rein here sends the batch, the reports and the rein (R192, R198). -/
theorem windowCloses_open (horder : s.span.inOrder = true) (hslot : s.span.inSlot = true) (hwindow : s.span.windowOpen = true)
    (hkept : s.span.forfeiting = false) (hrein : s.span.reinHere = true)
    (hlast : ((s.span.slotAt.getD 0 + s.span.slotLen : Nat) : Int) ≤ s.spanTick + 1) :
    let a := s.sendBatch.sendReports.takeMarks
    let body := a.makeRein s.span.regen false false
    let b := a.ringSend 1 0xFF body
    s.windowCloses = { b with span := { b.span with
      rein := some body, slotTick := u64 body 24, inSlot := false, windowOpen := false
      reinHere := byteAt body 40 == s.span.me, forfeiting := false, regen := false
      own := b.span.own ++ b.span.later, later := [] } } := by
  obtain ⟨hspan, hjoining, hinside⟩ := inOrder_state horder
  have hdue : ¬ s.spanTick + 1 < ((s.span.slotAt.getD 0 + s.span.slotLen : Nat) : Int) := Int.not_lt.mpr hlast
  have hin : (s.span.state == .outside) = false := beq_eq_false_iff_ne.mpr hinside
  simp only [State.windowCloses, hslot, hspan, hjoining, hdue, hwindow, hkept, hin, hrein, Bool.not_true, Bool.not_false,
    decide_false, Bool.or_self, Bool.and_self, Bool.true_or, Bool.false_eq_true, if_false, if_true, Span.slotOver]

/-! ### The rein made anew -/

/-- REIN_REGENERATE at a member that is OUTSIDE (R213). -/
theorem regenerate_outside {r : Bytes} (hstate : s.span.state = .outside) (hslot : s.span.inSlot = true)
    (haway : s.span.reinHere = false) (hfirst : s.span.regen = false) (hrein : s.span.rein = some r) :
    s.regenerate = ({ s with span := { s.span with
      rein := some (r.take 24 ++ toBe 8 (s.span.slotAt.getD 0) ++ slice r 32 8 ++ [BitVec.ofNat 8 s.span.me] ++ r.drop 41)
      slotTick := s.span.slotAt.getD 0, regen := true } } : State).bump 0x00020108 := by
  simp [State.regenerate, hstate, hslot, haway, hfirst, hrein]

/-- REIN_REGENERATE at a member in the order, on a part of the ring that holds the majority: behind a silent predecessor it
holds its slot, otherwise it forfeits it (R199). -/
theorem regenerate_inOrder {r : Bytes} (horder : s.span.inOrder = true) (hslot : s.span.inSlot = true)
    (haway : s.span.reinHere = false) (hfirst : s.span.regen = false) (hrein : s.span.rein = some r)
    (hwhole : s.span.splitOff = false) :
    let x := s.span
    let start := x.slotAt.getD 0
    let prev := x.predecessor x.me
    let body := r.take 24 ++ toBe 8 start ++ slice r 32 8 ++ [BitVec.ofNat 8 x.me] ++ r.drop 41
    ((assoc x.silent prev).isSome = true → s.regenerate = ({ s with span := { x with
      rein := some body, slotTick := start, regen := true, windowOpen := true } } : State).bump 0x00020108) ∧
    ((assoc x.silent prev).isSome = false →
      x.batches.find? (fun b => b.origin == prev && !b.covered && b.complete && b.first == x.orderNext) = none →
      s.regenerate = (({ s with span := { x with
        rein := some body, slotTick := start, regen := true } } : State).bump 0x00020108).forfeitSlot s.tick) := by
  intro x start prev body
  obtain ⟨-, -, hinside⟩ := inOrder_state horder
  have hmember : (s.span.state == .member || s.span.state == .leaving) = true := horder
  refine ⟨fun hsilent => ?_, fun hsilent hfull => ?_⟩
  · have hprev : (assoc s.span.silent (s.span.predecessor s.span.me)).isSome = true := hsilent
    simp [State.regenerate, hmember, hslot, haway, hfirst, hrein, hinside, hwhole, hprev, x, start, body]
  · have hprev : (assoc s.span.silent (s.span.predecessor s.span.me)).isSome = false := hsilent
    have hnone : s.span.batches.find? (fun b => b.origin == s.span.predecessor s.span.me && !b.covered && b.complete &&
      b.first == s.span.orderNext) = none := hfull
    simp [State.regenerate, hmember, hslot, haway, hfirst, hrein, hinside, hwhole, hprev, hnone, x, start, body]

/-- SILENT_MEMBER of another present member counts its slot, and the third makes the master order its removal (R213). -/
theorem silentSlot_other {m : Nat} (horder : s.span.inOrder = true) (hpresent : s.span.present.contains m = true)
    (hother : m ≠ s.span.me) :
    let n := min 3 ((assoc s.span.silent m).getD 0 + 1)
    let t := ({ s with span := { s.span with silent := insertSorted m n s.span.silent } } : State).watchSets
    (n < 3 → s.silentSlot m = t) ∧ (n = 3 → t.span.me = t.span.master → s.silentSlot m = t.orderRemove m) := by
  intro n t
  have hmember : (s.span.state == .member || s.span.state == .leaving) = true := horder
  have hcounted : s.silentSlot m =
      if n = 3 && (t.span.me = t.span.master || (m = t.span.master && t.span.electMaster = t.span.me)) then t.orderRemove m
      else t := by
    simp only [State.silentSlot, hmember, hpresent, hother, Bool.not_true, decide_false, Bool.or_self, Bool.false_eq_true,
      if_false]
    rfl
  refine ⟨fun hfew => ?_, fun hthird hlead => ?_⟩
  · rw [hcounted]
    exact if_neg (by simp [Nat.ne_of_lt hfew])
  · rw [hcounted]
    exact if_pos (by simp [hthird, hlead])

/-! ### Batches and digests -/

/-- BATCH_COMMIT of a batch committed for a set applies what may be (R204, R205). -/
theorem batchCommits_of_mem {first set : Nat} {b : Batch} (hb : b ∈ s.span.batches) (hfirst : b.first = first)
    (hcommitted : b.committed.getLsbD set = true) (horigin : set = 0 ∨ b.origin = s.span.me) :
    s.batchCommits first set = s.advance.resumeFloors := by
  refine if_pos (List.any_eq_true.mpr ⟨b, hb, ?_⟩)
  simpa [hfirst, hcommitted] using horigin

/-- One report of an earlier rotation is decided, and its digest's reports go (R224). -/
theorem digestDecides_single {r : Report} (horder : s.span.inOrder = true) (hreports : s.span.reports = [r])
    (hearlier : r.rot + 1 ≤ s.span.rotation) :
    s.digestDecides = ({ s.decideDigest r with span := { (s.decideDigest r).span with
      reports := (s.decideDigest r).span.reports.filter (fun q => !r.sameAs q) } } : State).watchSets := by
  have hdue : [r].filter (fun q : Report => decide (q.rot + 1 ≤ s.span.rotation)) = [r] :=
    List.filter_cons_of_pos (decide_eq_true hearlier)
  simp only [State.digestDecides, horder, hreports, hdue, List.foldl_cons, List.foldl_nil, List.any_cons, List.any_nil,
    List.nil_append, Bool.or_false, Bool.not_true, Bool.false_eq_true, if_false]

/-! ### Rotations -/

/-- ROTATION_START at the end of a rotation turns the layout at a member that it keeps (R191). -/
theorem rotationStarts_due (horder : s.span.inOrder = true)
    (hdue : ((s.span.rotStart + s.span.rotationTicks : Nat) : Int) ≤ s.spanTick)
    (hkept : (s.span.turned s.setVersions).present.contains s.span.me = true) :
    s.rotationStarts = s.rotate (s.span.turned s.setVersions) := by
  obtain ⟨-, hjoining, -⟩ := inOrder_state horder
  have hnotYet : ¬ s.spanTick < ((s.span.rotStart + s.span.rotationTicks : Nat) : Int) := Int.not_lt.mpr hdue
  simp only [State.rotationStarts, hjoining, horder, hnotYet, hkept, decide_false, Bool.false_and, Bool.not_true, Bool.or_self,
    Bool.false_eq_true, if_false, if_true]

/-- Settles O59: the branch of each command that its conditions choose. -/
theorem slotsAndRotations : Obligations.SlotsAndRotations := by
  unfold Obligations.SlotsAndRotations
  intro s
  refine ⟨?_, fun horder hslot hwindow hkept hrein hlast => ?_, fun r hstate hslot haway hfirst hrein => ?_,
    fun r horder hslot haway hfirst hrein hwhole => ?_, fun m horder hpresent hother => ?_,
    fun first set b hb hfirst hcommitted horigin => ?_, fun first b hfind => ?_, fun r horder hreports hearlier => ?_,
    fun horder hdue hkept => ?_, fun j id hstate hrein hjoin hdesc => ?_, fun id t d hdesc hphase hreply hdue => ?_⟩
  · intro x at_ hspan hjoining hpresent hclosed hnew hbegun hgoing t
    refine congrArg Host.Outcome.next ((slotStarts_once hspan hjoining hpresent hclosed hnew hbegun hgoing).trans ?_)
    rfl
  · exact congrArg Host.Outcome.next (windowCloses_open horder hslot hwindow hkept hrein hlast)
  · exact congrArg Host.Outcome.next (regenerate_outside hstate hslot haway hfirst hrein)
  · obtain ⟨hholds, hforfeits⟩ := regenerate_inOrder horder hslot haway hfirst hrein hwhole
    exact ⟨fun h => congrArg Host.Outcome.next (hholds h), fun h hfull => congrArg Host.Outcome.next (hforfeits h hfull)⟩
  · obtain ⟨hfew, hthird⟩ := silentSlot_other horder hpresent hother
    exact ⟨fun h => congrArg Host.Outcome.next (hfew h), fun h hlead => congrArg Host.Outcome.next (hthird h hlead)⟩
  · exact congrArg Host.Outcome.next (batchCommits_of_mem hb hfirst hcommitted horigin)
  · refine congrArg Host.Outcome.next ?_
    rw [State.repairFails, hfind]
  · exact congrArg Host.Outcome.next (digestDecides_single horder hreports hearlier)
  · exact congrArg Host.Outcome.next (rotationStarts_due horder hdue hkept)
  · exact congrArg Host.Outcome.next (if_pos (by simp [hstate, hrein, hjoin, hdesc]))
  · have hdueNow : s.floorDue d = true := by simp [State.floorDue, hreply, hdue]
    show execFloorTimeout id s = _
    simp [execFloorTimeout, hdesc, hdueNow, hphase]

end Sys2Proof.Laws
end
